-- ==== Sys2Proof/Word.lean ====
section
/-! DEFINITION. The machine's units of data (00_scope.md R9): bytes, 16-bit words and register indices. -/

namespace Sys2Proof

/-- A byte: 8 bits (00_scope.md R9). -/
abbrev Byte := BitVec 8

/-- A 16-bit value: an instruction word, `I`, `PC`, a stack entry (10_state.md R24 to R26). -/
abbrev Word := BitVec 16

/-- The index of a general register, 0 to 15 (10_state.md R20). -/
abbrev Reg := Fin 16

end Sys2Proof
end

