-- ==== Sys2Proof/Syntax.lean ====
section
/-! DEFINITION. The 34 instructions of 30_encoding.md R96, one constructor a row, and their mnemonics. -/

namespace Sys2Proof

/-- One constructor per row of the opcode map (30_encoding.md R96). `x` and `y` are register indices;
`nn` is an 8-bit immediate; `nnn` (0 to 4095) and `n` (0 to 15) are unsigned numbers (R93), whose range
WellFormed.lean checks. SHR and SHL have no `y`: their Y field is ignored (R100). -/
inductive Instr where
  | cls
  | ret
  | jmp (nnn : Nat)
  | call (nnn : Nat)
  | skeqi (x : Reg) (nn : Byte)
  | sknei (x : Reg) (nn : Byte)
  | skeq (x y : Reg)
  | movi (x : Reg) (nn : Byte)
  | addi (x : Reg) (nn : Byte)
  | mov (x y : Reg)
  | or (x y : Reg)
  | and (x y : Reg)
  | xor (x y : Reg)
  | add (x y : Reg)
  | sub (x y : Reg)
  | shr (x : Reg)
  | rsub (x y : Reg)
  | shl (x : Reg)
  | skne (x y : Reg)
  | ldidx (nnn : Nat)
  | jmpv0 (nnn : Nat)
  | rand (x : Reg) (nn : Byte)
  | draw (x y : Reg) (n : Nat)
  | skkey (x : Reg)
  | sknkey (x : Reg)
  | rddt (x : Reg)
  | waitkey (x : Reg)
  | wrdt (x : Reg)
  | wrst (x : Reg)
  | addidx (x : Reg)
  | glyph (x : Reg)
  | bcd (x : Reg)
  | stregs (x : Reg)
  | ldregs (x : Reg)
  deriving DecidableEq, Repr

/-- The mnemonic of 30_encoding.md R96, as spec/opcode_table.json spells it. -/
def Instr.mnemonic : Instr → String
  | .cls => "CLS"
  | .ret => "RET"
  | .jmp _ => "JMP"
  | .call _ => "CALL"
  | .skeqi _ _ => "SKEQI"
  | .sknei _ _ => "SKNEI"
  | .skeq _ _ => "SKEQ"
  | .movi _ _ => "MOVI"
  | .addi _ _ => "ADDI"
  | .mov _ _ => "MOV"
  | .or _ _ => "OR"
  | .and _ _ => "AND"
  | .xor _ _ => "XOR"
  | .add _ _ => "ADD"
  | .sub _ _ => "SUB"
  | .shr _ => "SHR"
  | .rsub _ _ => "RSUB"
  | .shl _ => "SHL"
  | .skne _ _ => "SKNE"
  | .ldidx _ => "LDIDX"
  | .jmpv0 _ => "JMPV0"
  | .rand _ _ => "RAND"
  | .draw _ _ _ => "DRAW"
  | .skkey _ => "SKKEY"
  | .sknkey _ => "SKNKEY"
  | .rddt _ => "RDDT"
  | .waitkey _ => "WAITKEY"
  | .wrdt _ => "WRDT"
  | .wrst _ => "WRST"
  | .addidx _ => "ADDIDX"
  | .glyph _ => "GLYPH"
  | .bcd _ => "BCD"
  | .stregs _ => "STREGS"
  | .ldregs _ => "LDREGS"

end Sys2Proof
end

