-- ==== Sys2Proof/WellFormed.lean ====
section
/-! DEFINITION. The ranges of the immediates that an instruction's fields hold (30_encoding.md R93).
Register indices and 8-bit immediates carry their range in their type. -/

namespace Sys2Proof

/-- `NNN` is a 12-bit unsigned number (30_encoding.md R93). -/
abbrev wellFormedNNN (nnn : Nat) : Bool := nnn < 4096

/-- `N` is a 4-bit unsigned number (30_encoding.md R93). -/
abbrev wellFormedN (n : Nat) : Bool := n < 16

/-- The instruction's immediates fit their fields, so that it has an encoding (30_encoding.md R93). -/
def Instr.wellFormed : Instr → Bool
  | .jmp nnn => wellFormedNNN nnn
  | .call nnn => wellFormedNNN nnn
  | .ldidx nnn => wellFormedNNN nnn
  | .jmpv0 nnn => wellFormedNNN nnn
  | .draw _ _ n => wellFormedN n
  | .cls | .ret | .skeqi _ _ | .sknei _ _ | .skeq _ _ | .movi _ _ | .addi _ _ | .mov _ _ | .or _ _
  | .and _ _ | .xor _ _ | .add _ _ | .sub _ _ | .shr _ | .rsub _ _ | .shl _ | .skne _ _ | .rand _ _
  | .skkey _ | .sknkey _ | .rddt _ | .waitkey _ | .wrdt _ | .wrst _ | .addidx _ | .glyph _ | .bcd _
  | .stregs _ | .ldregs _ => true

end Sys2Proof
end

