-- ==== Sys2Proof/Decode.lean ====
section
/-! DEFINITION. Decoding (30_encoding.md R90 to R100): the fields of an instruction word, the decode
procedure of R97, the decoder over bytes, the encoder, and the opcode map of R96 as a table. -/

namespace Sys2Proof

/-- The word of two consecutive bytes, the first at the lower address (30_encoding.md R91: big-endian). -/
def wordOfBytes (first second : Byte) : Word := first ++ second

/-- The two bytes of a word in the order memory holds them (30_encoding.md R91). -/
def bytesOfWord (w : Word) : List Byte := [w.extractLsb' 8 8, w.extractLsb' 0 8]

/-- `op = w[15:12]` (30_encoding.md R92). -/
def fieldOp (w : Word) : Nat := (w.extractLsb' 12 4).toNat

/-- `X = w[11:8]` (30_encoding.md R92). -/
def fieldX (w : Word) : Reg := (w.extractLsb' 8 4).toFin

/-- `Y = w[7:4]` (30_encoding.md R92). -/
def fieldY (w : Word) : Reg := (w.extractLsb' 4 4).toFin

/-- `N = w[3:0]` (30_encoding.md R92, R93). -/
def fieldN (w : Word) : Nat := (w.extractLsb' 0 4).toNat

/-- `NN = w[7:0]` (30_encoding.md R93). -/
def fieldNN (w : Word) : Byte := w.extractLsb' 0 8

/-- `NNN = w[11:0]` (30_encoding.md R93). -/
def fieldNNN (w : Word) : Nat := (w.extractLsb' 0 12).toNat

/-- Op class 8: the register-register group, by its sub-opcode `N` (30_encoding.md R97). -/
def decodeClass8 (w : Word) : Option Instr :=
  match fieldN w with
  | 0x0 => some (.mov (fieldX w) (fieldY w))
  | 0x1 => some (.or (fieldX w) (fieldY w))
  | 0x2 => some (.and (fieldX w) (fieldY w))
  | 0x3 => some (.xor (fieldX w) (fieldY w))
  | 0x4 => some (.add (fieldX w) (fieldY w))
  | 0x5 => some (.sub (fieldX w) (fieldY w))
  | 0x6 => some (.shr (fieldX w))
  | 0x7 => some (.rsub (fieldX w) (fieldY w))
  | 0xE => some (.shl (fieldX w))
  | _ => none

/-- Op class E: the key skips, by the low byte (30_encoding.md R97). -/
def decodeClassE (w : Word) : Option Instr :=
  match (fieldNN w).toNat with
  | 0x9E => some (.skkey (fieldX w))
  | 0xA1 => some (.sknkey (fieldX w))
  | _ => none

/-- Op class F: timers, key wait, index, BCD and register blocks, by the low byte (30_encoding.md R97). -/
def decodeClassF (w : Word) : Option Instr :=
  match (fieldNN w).toNat with
  | 0x07 => some (.rddt (fieldX w))
  | 0x0A => some (.waitkey (fieldX w))
  | 0x15 => some (.wrdt (fieldX w))
  | 0x18 => some (.wrst (fieldX w))
  | 0x1E => some (.addidx (fieldX w))
  | 0x29 => some (.glyph (fieldX w))
  | 0x33 => some (.bcd (fieldX w))
  | 0x55 => some (.stregs (fieldX w))
  | 0x65 => some (.ldregs (fieldX w))
  | _ => none

/-- The decode procedure of 30_encoding.md R97; `none` is its UnknownInstruction(w). A function of the
word alone (R94), strict in every fixed bit (R99). -/
def decode (w : Word) : Option Instr :=
  match fieldOp w with
  | 0x0 => if w = 0x00E0#16 then some .cls else if w = 0x00EE#16 then some .ret else none
  | 0x1 => some (.jmp (fieldNNN w))
  | 0x2 => some (.call (fieldNNN w))
  | 0x3 => some (.skeqi (fieldX w) (fieldNN w))
  | 0x4 => some (.sknei (fieldX w) (fieldNN w))
  | 0x5 => if fieldN w = 0 then some (.skeq (fieldX w) (fieldY w)) else none
  | 0x6 => some (.movi (fieldX w) (fieldNN w))
  | 0x7 => some (.addi (fieldX w) (fieldNN w))
  | 0x8 => decodeClass8 w
  | 0x9 => if fieldN w = 0 then some (.skne (fieldX w) (fieldY w)) else none
  | 0xA => some (.ldidx (fieldNNN w))
  | 0xB => some (.jmpv0 (fieldNNN w))
  | 0xC => some (.rand (fieldX w) (fieldNN w))
  | 0xD => some (.draw (fieldX w) (fieldY w) (fieldN w))
  | 0xE => decodeClassE w
  | 0xF => decodeClassF w
  | _ => none

/-- Why bytes are not an instruction. -/
inductive DecodeError where
  /-- Fewer than the two bytes that every instruction has (30_encoding.md R90). -/
  | truncated
  /-- The word matches no row of the opcode map (30_encoding.md R99). -/
  | unknownInstruction (word : Word)
  deriving DecidableEq, Repr

/-- Decode the first instruction of a byte sequence and give the bytes after it (30_encoding.md R90,
R91). -/
def decodeBytes : List Byte → Except DecodeError (Instr × List Byte)
  | first :: second :: rest =>
    match decode (wordOfBytes first second) with
    | some i => .ok (i, rest)
    | none => .error (.unknownInstruction (wordOfBytes first second))
  | _ => .error .truncated

/-- A register index as a 4-bit field (30_encoding.md R92). -/
def regField (x : Reg) : BitVec 4 := BitVec.ofFin x

/-- Format NNN of 30_encoding.md R95: `c n n n`. -/
def encodeNNN (c : BitVec 4) (nnn : Nat) : Word := c ++ BitVec.ofNat 12 nnn

/-- Format XNN of 30_encoding.md R95: `c X n n`. -/
def encodeXNN (c : BitVec 4) (x : Reg) (nn : Byte) : Word := c ++ regField x ++ nn

/-- Formats XY and XYN of 30_encoding.md R95: `c X Y s`. -/
def encodeXY (c : BitVec 4) (x y : Reg) (s : BitVec 4) : Word :=
  c ++ regField x ++ regField y ++ s

/-- The word of an instruction, from the opcode map (30_encoding.md R96). SHR and SHL are written with
`Y = 0` (R102). -/
def encode : Instr → Word
  | .cls => 0x00E0#16
  | .ret => 0x00EE#16
  | .jmp nnn => encodeNNN 0x1#4 nnn
  | .call nnn => encodeNNN 0x2#4 nnn
  | .skeqi x nn => encodeXNN 0x3#4 x nn
  | .sknei x nn => encodeXNN 0x4#4 x nn
  | .skeq x y => encodeXY 0x5#4 x y 0x0#4
  | .movi x nn => encodeXNN 0x6#4 x nn
  | .addi x nn => encodeXNN 0x7#4 x nn
  | .mov x y => encodeXY 0x8#4 x y 0x0#4
  | .or x y => encodeXY 0x8#4 x y 0x1#4
  | .and x y => encodeXY 0x8#4 x y 0x2#4
  | .xor x y => encodeXY 0x8#4 x y 0x3#4
  | .add x y => encodeXY 0x8#4 x y 0x4#4
  | .sub x y => encodeXY 0x8#4 x y 0x5#4
  | .shr x => encodeXY 0x8#4 x 0 0x6#4
  | .rsub x y => encodeXY 0x8#4 x y 0x7#4
  | .shl x => encodeXY 0x8#4 x 0 0xE#4
  | .skne x y => encodeXY 0x9#4 x y 0x0#4
  | .ldidx nnn => encodeNNN 0xA#4 nnn
  | .jmpv0 nnn => encodeNNN 0xB#4 nnn
  | .rand x nn => encodeXNN 0xC#4 x nn
  | .draw x y n => encodeXY 0xD#4 x y (BitVec.ofNat 4 n)
  | .skkey x => encodeXNN 0xE#4 x 0x9E#8
  | .sknkey x => encodeXNN 0xE#4 x 0xA1#8
  | .rddt x => encodeXNN 0xF#4 x 0x07#8
  | .waitkey x => encodeXNN 0xF#4 x 0x0A#8
  | .wrdt x => encodeXNN 0xF#4 x 0x15#8
  | .wrst x => encodeXNN 0xF#4 x 0x18#8
  | .addidx x => encodeXNN 0xF#4 x 0x1E#8
  | .glyph x => encodeXNN 0xF#4 x 0x29#8
  | .bcd x => encodeXNN 0xF#4 x 0x33#8
  | .stregs x => encodeXNN 0xF#4 x 0x55#8
  | .ldregs x => encodeXNN 0xF#4 x 0x65#8

/-- The bytes of an instruction as memory holds them (30_encoding.md R91). -/
def encodeBytes (i : Instr) : List Byte := bytesOfWord (encode i)

/-- One row of the opcode map (30_encoding.md R96). -/
structure OpcodeRow where
  mnemonic : String
  pattern : Word
  mask : Word
  deriving DecidableEq, Repr

/-- A word selects a row when its masked bits equal the row's match value (30_encoding.md R96). -/
def OpcodeRow.selects (r : OpcodeRow) (w : Word) : Bool := w &&& r.mask == r.pattern

/-- Rows 1 to 9 and 19 to 23 of 30_encoding.md R96: the classes with no group of sub-opcodes. -/
def opcodeRowsPlain : List OpcodeRow := [
  ⟨"CLS", 0x00E0, 0xFFFF⟩, ⟨"RET", 0x00EE, 0xFFFF⟩, ⟨"JMP", 0x1000, 0xF000⟩,
  ⟨"CALL", 0x2000, 0xF000⟩, ⟨"SKEQI", 0x3000, 0xF000⟩, ⟨"SKNEI", 0x4000, 0xF000⟩,
  ⟨"SKEQ", 0x5000, 0xF00F⟩, ⟨"MOVI", 0x6000, 0xF000⟩, ⟨"ADDI", 0x7000, 0xF000⟩,
  ⟨"SKNE", 0x9000, 0xF00F⟩, ⟨"LDIDX", 0xA000, 0xF000⟩, ⟨"JMPV0", 0xB000, 0xF000⟩,
  ⟨"RAND", 0xC000, 0xF000⟩, ⟨"DRAW", 0xD000, 0xF000⟩]

/-- Rows 10 to 18 of 30_encoding.md R96: op class 8. -/
def opcodeRowsClass8 : List OpcodeRow := [
  ⟨"MOV", 0x8000, 0xF00F⟩, ⟨"OR", 0x8001, 0xF00F⟩, ⟨"AND", 0x8002, 0xF00F⟩,
  ⟨"XOR", 0x8003, 0xF00F⟩, ⟨"ADD", 0x8004, 0xF00F⟩, ⟨"SUB", 0x8005, 0xF00F⟩,
  ⟨"SHR", 0x8006, 0xF00F⟩, ⟨"RSUB", 0x8007, 0xF00F⟩, ⟨"SHL", 0x800E, 0xF00F⟩]

/-- Rows 24 to 34 of 30_encoding.md R96: op classes E and F. -/
def opcodeRowsClassEF : List OpcodeRow := [
  ⟨"SKKEY", 0xE09E, 0xF0FF⟩, ⟨"SKNKEY", 0xE0A1, 0xF0FF⟩, ⟨"RDDT", 0xF007, 0xF0FF⟩,
  ⟨"WAITKEY", 0xF00A, 0xF0FF⟩, ⟨"WRDT", 0xF015, 0xF0FF⟩, ⟨"WRST", 0xF018, 0xF0FF⟩,
  ⟨"ADDIDX", 0xF01E, 0xF0FF⟩, ⟨"GLYPH", 0xF029, 0xF0FF⟩, ⟨"BCD", 0xF033, 0xF0FF⟩,
  ⟨"STREGS", 0xF055, 0xF0FF⟩, ⟨"LDREGS", 0xF065, 0xF0FF⟩]

/-- The opcode map of 30_encoding.md R96: 34 rows. -/
def opcodeMap : List OpcodeRow := opcodeRowsPlain ++ opcodeRowsClass8 ++ opcodeRowsClassEF

/-- The word whose bits the opcode table numbers: `nbits` of them, every higher bit 0 (log 19). -/
def tableWord (nbits w : Nat) : Word := BitVec.ofNat 16 (w % 2 ^ min nbits 16)

/-- The instruction the decoder reads from table bits `w`, laid out in memory order (log 19). -/
def decodeTableWord (nbits w : Nat) : Option Instr :=
  match decodeBytes (bytesOfWord (tableWord nbits w)) with
  | .ok (i, _) => some i
  | .error _ => none

end Sys2Proof
end

