-- ==== Sys2Proof/Machine/Event.lean ====
section
/-! DEFINITION. The host's events (60_exceptions.md R255). -/

namespace Sys2Proof.Machine

/-- The events through which the core changes state (60_exceptions.md R255), and Tick, the timer engine's
abstraction (R247). -/
inductive Event where
  /-- Reset (70_reset_and_hazards.md R280). -/
  | reset
  /-- LoadImage of a byte sequence (70_reset_and_hazards.md R284). -/
  | loadImage (image : List Byte)
  /-- Step: one instruction (60_exceptions.md R256). -/
  | step
  /-- TimerAdvance by `dt` time units (60_exceptions.md R246). -/
  | timerAdvance (dt : Nat)
  /-- One decrement round of the timer engine (60_exceptions.md R247). -/
  | tick
  /-- SetKeys with 16 flags (60_exceptions.md R250). -/
  | setKeys (keys : Vector Bool 16)
  /-- SetWrapPolicy (60_exceptions.md R253). -/
  | setWrapPolicy (wrap : Bool)
  /-- ConsumeRedraw (60_exceptions.md R251). -/
  | consumeRedraw
  /-- ConsumeSoundChanged (60_exceptions.md R252). -/
  | consumeSoundChanged
  deriving DecidableEq, Repr, Inhabited

end Sys2Proof.Machine
end

