-- ==== Sys2Proof/Config.lean ====
section
/-! DEFINITION. What the spec leaves open (00_scope.md R8, 92_eei_decisions.md): the open parameters,
the free random byte and the free events of the host. A constant declared `opaque` has no value that a proof could use. -/

namespace Sys2Proof.Config

/-- How many call-stack entries the machine has beyond 16 (10_state.md R25: 16 to 24 entries; D5: OPEN). -/
opaque stackEntriesBeyond16 : Fin 9

/-- `STACK_CAPACITY` (00_scope.md R8): open, 16 to 24 inclusive (log 3). -/
def stackCapacity : Nat := stackEntriesBeyond16.val + 16

/-- `PERIOD` less one; D19: OPEN, any positive natural. -/
opaque periodMinusOne : Nat

/-- `PERIOD` (00_scope.md R8): the number of time units in 1/60 second, open and positive (log 4). -/
def period : Nat := periodMinusOne + 1

/-- `DT_CAP` less one; D19: OPEN, any positive natural. -/
opaque dtCapMinusOne : Nat

/-- `DT_CAP` (00_scope.md R8): the largest elapsed time one TimerAdvance accounts for, open and positive
(log 4). -/
def dtCap : Nat := dtCapMinusOne + 1

/-- `WRAP_INIT` (10_state.md R31; D21: OPEN). DESIGN CHOICE, unsafe: the value `State.reset` holds
(log 5); every statement over all states covers both values of `WRAP`. -/
def wrapInit : Bool := false

/-- The random byte `rnd` of the n-th RAND (41_alu.md R163; D16): a free value, under no law (log 6). -/
opaque rnd : Nat → Byte

/-- The n-th event of a host that is left free (60_exceptions.md R257, 93_implementation_defined.md U20; D26): any
event, in any order, without end and without fairness, so that Steps too may stop coming: a free value, under
no law (log 7). -/
opaque hostEvent : Nat → Machine.Event

end Sys2Proof.Config
end

