-- ==== Sys2Proof/Machine/Font.lean ====
section
/-! DEFINITION. The font table, a parameter of 80 bytes (00_scope.md R8, 10_state.md R38), and the value the
spec recommends for it. -/

namespace Sys2Proof.Machine

/-- `FONT`, any 80 bytes: glyph `g` at `5g` to `5g+4` (00_scope.md R8, 10_state.md R38). -/
abbrev Font := Vector Byte 80

/-- Glyphs 0 to 7 of the recommended table (10_state.md R38). -/
def fontLow : List Byte :=
  [0xF0, 0x90, 0x90, 0x90, 0xF0,  0x20, 0x60, 0x20, 0x20, 0x70,
   0xF0, 0x10, 0xF0, 0x80, 0xF0,  0xF0, 0x10, 0xF0, 0x10, 0xF0,
   0x90, 0x90, 0xF0, 0x10, 0x10,  0xF0, 0x80, 0xF0, 0x10, 0xF0,
   0xF0, 0x80, 0xF0, 0x90, 0xF0,  0xF0, 0x10, 0x20, 0x40, 0x40]

/-- Glyphs 8 to F of the recommended table (10_state.md R38). -/
def fontHigh : List Byte :=
  [0xF0, 0x90, 0xF0, 0x90, 0xF0,  0xF0, 0x90, 0xF0, 0x10, 0xF0,
   0xF0, 0x90, 0xF0, 0x90, 0x90,  0xE0, 0x90, 0xE0, 0x90, 0xE0,
   0xF0, 0x80, 0x80, 0x80, 0xF0,  0xE0, 0x90, 0x90, 0x90, 0xE0,
   0xF0, 0x80, 0xF0, 0x80, 0xF0,  0xF0, 0x80, 0xF0, 0x80, 0x80]

/-- The recommended value of the parameter, which `State.reset` holds. PRESUMED by the spec (general
knowledge), unsafe for a claim about a glyph's pixels in a run from `State.reset` (log 2). -/
def recommendedFont : Font := ⟨(fontLow ++ fontHigh).toArray, rfl⟩

end Sys2Proof.Machine
end

