-- ==== Sys2Proof/Machine/State.lean ====
section
/-! DEFINITION. All the state the spec gives the machine (10_state.md R20 to R42), the reasons a step can
stop, what the host does next (60_exceptions.md R257), and the state after reset (10_state.md R40). -/

namespace Sys2Proof.Machine

/-- The five conditions a Step can raise (60_exceptions.md R235), the tags of `FAULT` (10_state.md R37).
Raising one is a next state in which `FAULT` holds it (60_exceptions.md R236; log 10). -/
inductive Condition where
  /-- Decode of an unrecognised word (R230). -/
  | unknownInstruction (word : Word)
  /-- CALL with the stack full (R231). -/
  | stackOverflow
  /-- RET with the stack empty (R232). -/
  | stackUnderflow
  /-- A fetch, DRAW, BCD, STREGS or LDREGS that would touch an address of 4096 or more; the lowest such
  address (R233). -/
  | memoryOutOfRange (addr : Nat)
  /-- SKKEY or SKNKEY with `V[X]` above 15 (R234). -/
  | keyIndexOutOfRange (value : Byte)
  deriving DecidableEq, Repr

/-- The reasons a step could stop the machine for good. There are none: every condition the spec names is
a next state, from which the timer engine and the host go on and Reset recovers (60_exceptions.md R236,
R239, R240; log 10). -/
inductive Fault where
  deriving DecidableEq, Repr

/-- The reasons an event is refused. -/
inductive Refusal where
  /-- Raised by an arm of `exec` whose instruction has no meaning yet; no arm does. Safe. -/
  | notModelled (mnemonic : String)
  /-- Raised by any event but Reset and SetWrapPolicy before the first Reset (10_state.md R40,
  70_reset_and_hazards.md R281, 93_implementation_defined.md U14: refuse). Safe. -/
  | beforeFirstReset
  /-- Raised by a Step after a LoadImage that returned ImageTooLarge (60_exceptions.md R258,
  70_reset_and_hazards.md R286, 93_implementation_defined.md U18: refuse). Safe. -/
  | afterFailedLoad
  deriving DecidableEq, Repr

/-- What an event returns to the host (60_exceptions.md R255, column result). -/
inductive Reply where
  /-- No event has returned a result yet. -/
  | none
  /-- LoadImage returned ok. -/
  | loaded
  /-- LoadImage returned ImageTooLarge. -/
  | imageTooLarge
  /-- ConsumeRedraw or ConsumeSoundChanged returned this bit. -/
  | flag (value : Bool)
  deriving DecidableEq, Repr

/-- Which events the model accepts (93_implementation_defined.md U14, U18; log 8). -/
inductive Lifecycle where
  /-- No Reset has happened yet. -/
  | constructed
  /-- Reset has happened and the last LoadImage after it, if any, returned ok. -/
  | ready
  /-- The last LoadImage returned ImageTooLarge. -/
  | loadFailed
  deriving DecidableEq, Repr

/-- What the host does once the scheduled events are over (60_exceptions.md R257; log 7). -/
inductive Environment where
  /-- It issues Steps and nothing else. -/
  | stepsOnly
  /-- Its events are `Config.hostEvent n`, `Config.hostEvent (n + 1)`, … without end. -/
  | free (n : Nat)
  deriving DecidableEq, Repr

/-- `MEM` (10_state.md R35): the cells that differ from the reset contents, by rising address. -/
abbrev Memory := List Host.Cell

/-- `FB` (10_state.md R29): 32 rows, top to bottom, of 64 cells, left to right. -/
abbrev Framebuffer := Vector (Vector Bool 64) 32

/-- All the state of 10_state.md, and at the end the parameter `FONT` and the model's own
five fields (INVENTORY.md, State). -/
structure State where
  /-- `V[0]` to `V[15]` (R20); `V[15]` is `VF` (R21). -/
  v : Vector Byte 16
  /-- `I` (R24). -/
  index : Word
  /-- `PC` (R26). -/
  pc : Word
  /-- `STACK` (R25); entries from STACK_CAPACITY on do not exist and are never written (log 14). -/
  stack : Vector Word 24
  /-- `SP`, the number of entries in use (R25). -/
  sp : Nat
  /-- `DT`, the delay timer (R28). -/
  dt : Byte
  /-- `ST`, the sound timer (R28). -/
  st : Byte
  /-- `FB` (R29). -/
  fb : Framebuffer
  /-- `KEYS` (R30). -/
  keys : Vector Bool 16
  /-- `WRAP` (R31). -/
  wrap : Bool
  /-- `REDRAW` (R33). -/
  redraw : Bool
  /-- `SNDCHG` (R34). -/
  sndchg : Bool
  /-- `MEM` (R35). -/
  mem : Memory
  /-- `ACC`, the timer accumulator (R36). -/
  acc : Nat
  /-- `FAULT` (R37). -/
  fault : Option Condition
  /-- The parameter `FONT` of this machine (00_scope.md R8, 10_state.md R38): no step writes it, so that a claim
  over all states is a claim for every font (log 2). -/
  font : Font
  /-- The model's own: how many random bytes RAND has taken (log 6). -/
  draws : Nat
  /-- The model's own: which events are accepted (log 8). -/
  lifecycle : Lifecycle
  /-- The model's own: the host's next events, oldest first (log 7). -/
  schedule : List Event
  /-- The model's own: what the host does after them, without end (log 7). -/
  environment : Environment
  /-- The model's own: what the last event that has a result returned to the host (log 9). -/
  reply : Reply
  deriving DecidableEq, Repr

/-- The state after the Reset event (10_state.md R40). `WRAP` is `WRAP_INIT` (R31; log 5); `FONT` is
the recommended one (log 2); the model's own fields are DESIGN CHOICES (log 6 to 9). Memory lists nothing:
it reads as the reset contents. -/
def State.reset : State where
  v := Vector.replicate 16 0
  index := 0
  pc := 0x200
  stack := Vector.replicate 24 0
  sp := 0
  dt := 0
  st := 0
  fb := Vector.replicate 32 (Vector.replicate 64 false)
  keys := Vector.replicate 16 false
  wrap := Config.wrapInit
  redraw := false
  sndchg := false
  mem := []
  acc := 0
  fault := none
  font := recommendedFont
  draws := 0
  lifecycle := .ready
  schedule := []
  environment := .stepsOnly
  reply := .none

end Sys2Proof.Machine
end

