-- ==== Sys2Proof/Machine/Ops.lean ====
section
/-! DEFINITION. The named operations over registers and memory (10_state.md, 20_memory.md R65 to R71),
raising a condition (60_exceptions.md R236), and the instruction fetch (20_memory.md R69). -/

namespace Sys2Proof.Machine

/-- What executing an instruction or an event answers. -/
abbrev Result := Host.Outcome State Fault Refusal

/-! ### Memory -/

/-- The size of `MEM` (10_state.md R35). -/
def memSize : Nat := 4096

/-- What an address that memory does not list reads as: the contents after Reset (10_state.md R40), the
font in 0 to 79 and 0 above it (log 12). -/
def Memory.unlisted (font : Font) (a : Nat) : Byte := font[a]?.getD 0

/-- The byte at an address (20_memory.md R66, for an address in range). -/
def Memory.read (font : Font) : Memory → Nat → Byte
  | [], a => Memory.unlisted font a
  | (c, b) :: rest, a => if a = c then b else Memory.read font rest a

/-- Remove the entry of an address. -/
def Memory.remove : Memory → Nat → Memory
  | [], _ => []
  | (c, b) :: rest, a => if a = c then rest else (c, b) :: Memory.remove rest a

/-- List a byte at an address, at its place in rising order. -/
def Memory.insert : Memory → Nat → Byte → Memory
  | [], a, b => [(a, b)]
  | (c, d) :: rest, a, b =>
    if a < c then (a, b) :: (c, d) :: rest
    else if a = c then (a, b) :: rest
    else (c, d) :: Memory.insert rest a b

/-- Write a byte (20_memory.md R67, for an address in range). Writing what an unlisted address reads as
removes the entry, so that equal memories are equal data. -/
def Memory.write (font : Font) (m : Memory) (a : Nat) (b : Byte) : Memory :=
  if b = Memory.unlisted font a then m.remove a else m.insert a b

/-- The canonical form: rising addresses in 0 to 4095, no entry equal to what an unlisted address
reads as. -/
abbrev Memory.wf (font : Font) (m : Memory) : Prop :=
  m.Pairwise (fun p q => p.1 < q.1) ∧ ∀ e ∈ m, e.1 < memSize ∧ e.2 ≠ Memory.unlisted font e.1

/-- Read `n` consecutive bytes from `a` upward, lowest address first. -/
def Memory.readBytes (font : Font) (m : Memory) (a : Nat) : Nat → List Byte
  | 0 => []
  | n + 1 => m.read font a :: Memory.readBytes font m (a + 1) n

/-- Write consecutive bytes from `a` upward, lowest address first. -/
def Memory.writeBytes (font : Font) (m : Memory) (a : Nat) : List Byte → Memory
  | [] => m
  | b :: bs => Memory.writeBytes font (m.write font a b) (a + 1) bs

/-- `MEM[a]` of a state, for an address in range (10_state.md R35). -/
def State.byteAt (s : State) (a : Nat) : Byte := s.mem.read s.font a

/-- `MEM` is in its canonical form. -/
abbrev State.memWf (s : State) : Prop := s.mem.wf s.font

/-! ### Registers -/

/-- `V[x]` (00_scope.md R10). No register is hardwired (10_state.md R20). -/
def State.reg (s : State) (x : Reg) : Byte := s.v[x]

/-- `V[x] <- b` (00_scope.md R10). -/
def State.setReg (s : State) (x : Reg) (b : Byte) : State := { s with v := s.v.set x b }

/-- `VF`, register 15 (10_state.md R21). -/
def regVF : Reg := 15

/-- `VF <- 1` or `VF <- 0` (10_state.md R21, R22). -/
def State.setFlag (s : State) (f : Bool) : State := s.setReg regVF (if f then 1 else 0)

/-- All sixteen registers at once (LDREGS, 42_index_memory.md R184). -/
def State.setRegs (s : State) (v : Vector Byte 16) : State := { s with v := v }

/-- `I <- w` (00_scope.md R10). -/
def State.setIndex (s : State) (w : Word) : State := { s with index := w }

/-- `PC <- w` (00_scope.md R10). -/
def State.setPc (s : State) (w : Word) : State := { s with pc := w }

/-- `PC <- PC + 2`: the next instruction (10_state.md R27). -/
def State.nextInstr (s : State) : State := s.setPc (s.pc + 2)

/-- `PC <- PC + 4`: over one instruction slot (40_control_transfer.md R136). -/
def State.skipInstr (s : State) : State := s.setPc (s.pc + 4)

/-- `STACK[k]` (10_state.md R25); 0 at an index that no admissible machine has (log 14). -/
def State.stackEntry (s : State) (k : Nat) : Word := s.stack[k]?.getD 0

/-- `STACK[SP] <- w; SP <- SP + 1` (10_state.md R25). -/
def State.push (s : State) (w : Word) : State :=
  { s with stack := s.stack.setIfInBounds s.sp w, sp := s.sp + 1 }

/-- `SP <- SP - 1`; the popped entry keeps its value (10_state.md R25). -/
def State.pop (s : State) : State := { s with sp := s.sp - 1 }

/-- `DT <- b` (44_keypad_timers.md R220). -/
def State.setDelay (s : State) (b : Byte) : State := { s with dt := b }

/-- `ST <- b; SNDCHG <- 1` (44_keypad_timers.md R222, 10_state.md R34). -/
def State.setSound (s : State) (b : Byte) : State := { s with st := b, sndchg := true }

/-- `FB <- fb; REDRAW <- 1` (10_state.md R33). -/
def State.display (s : State) (fb : Framebuffer) : State := { s with fb := fb, redraw := true }

/-- `MEM <- m` (20_memory.md R67). -/
def State.setMem (s : State) (m : Memory) : State := { s with mem := m }

/-- Store bytes from `a` upward, lowest address first (20_memory.md R67, for addresses in range). -/
def State.storeBytes (s : State) (a : Nat) (bs : List Byte) : State :=
  s.setMem (s.mem.writeBytes s.font a bs)

/-- The next RAND takes the next random byte (41_alu.md R163; log 6). -/
def State.countDraw (s : State) : State := { s with draws := s.draws + 1 }

/-- The host's next events are `rest` (60_exceptions.md R257; log 7). -/
def State.withSchedule (s : State) (rest : List Event) : State := { s with schedule := rest }

/-- After its scheduled events the host goes on as `e` says (60_exceptions.md R257; log 7). -/
def State.withEnvironment (s : State) (e : Environment) : State := { s with environment := e }

/-- `FAULT <- c` (10_state.md R37). -/
def State.setFault (s : State) (c : Condition) : State := { s with fault := some c }

/-! ### Ending an instruction -/

/-- `raise c` (60_exceptions.md R236): the one state change is `FAULT <- c`; `PC` stays, nothing is saved.
There is no handler and no return (R240). -/
def raise (c : Condition) (s : State) : Result := .next (s.setFault c)

/-- The instruction has done its work on `s`; `PC <- PC + 2` (00_scope.md R11). -/
def done (s : State) : Result := .next s.nextInstr

/-- `PC <- PC + 4` if the condition holds, else `PC <- PC + 2` (10_state.md R27). -/
def skipIf (c : Bool) (s : State) : Result := .next (if c then s.skipInstr else s.nextInstr)

/-! ### Access to memory -/

/-- The test of a whole range of `count` bytes from `base` before anything changes (20_memory.md R68): the
condition names the lowest address of the range that is 4096 or more. Addresses are naturals (R66). -/
def rangeFault (base count : Nat) : Option Condition :=
  if 0 < count ∧ memSize ≤ base + count - 1 then some (.memoryOutOfRange (max base memSize)) else none

/-- Raise the condition the instruction's own test found on `s`, or else complete with `t`
(60_exceptions.md R237). -/
def doneUnless (c : Option Condition) (s t : State) : Result :=
  match c with
  | some c => raise c s
  | none => done t

/-- `MemRead(addr, 1)` (20_memory.md R66). -/
def memRead (s : State) (a : Nat) : Except Condition Byte :=
  if a < memSize then .ok (s.byteAt a) else .error (.memoryOutOfRange a)

/-- `MemRead(PC, 2)`, the instruction fetch (20_memory.md R69): big-endian, `PC + 1` a natural. -/
def fetch (s : State) : Except Condition Word :=
  match memRead s s.pc.toNat with
  | .error c => .error c
  | .ok first =>
    match memRead s (s.pc.toNat + 1) with
    | .error c => .error c
    | .ok second => .ok (wordOfBytes first second)

end Sys2Proof.Machine
end

