-- ==== Sys2Proof/Machine/Flags.lean ====
section
/-! DEFINITION. Every flag computation of the spec (10_state.md R22, 41_alu.md R165), from the operand
values before the instruction. -/

namespace Sys2Proof.Machine

/-- ADD: 1 if `a + b > 255` (41_alu.md R152). -/
def carryFlag (a b : Byte) : Bool := a.toNat + b.toNat > 255

/-- SUB (`a - b`) and RSUB with the operands exchanged: 1 if `a >= b`, no borrow (41_alu.md R154, R158). -/
def noBorrowFlag (a b : Byte) : Bool := a.toNat ≥ b.toNat

/-- SHR: the old least significant bit (41_alu.md R156). -/
def lowBitFlag (a : Byte) : Bool := a.getLsbD 0

/-- SHL: the old most significant bit (41_alu.md R160). -/
def highBitFlag (a : Byte) : Bool := a.getLsbD 7

/-- ADDIDX: 1 if the unreduced sum exceeds 0x0FFF (42_index_memory.md R174). -/
def indexFlag (i : Word) (b : Byte) : Bool := i.toNat + b.toNat > 0x0FFF

end Sys2Proof.Machine
end

