-- ==== Sys2Proof/Machine/Operands.lean ====
section
/-! DEFINITION. The operand forms of the spec beside `V[X]` and `V[Y]` (30_encoding.md R93,
42_index_memory.md R186): immediates widened to 16 bits, the index register as a base address, register
blocks, decimal digits, glyph addresses, and the key a register names. -/

namespace Sys2Proof.Machine

/-- `zext_16(NNN)` (30_encoding.md R93). -/
def zext16 (nnn : Nat) : Word := BitVec.ofNat 16 nnn

/-- The base address of every data access: `I`, a natural (42_index_memory.md R186). -/
def State.base (s : State) : Nat := s.index.toNat

/-- `V[0]` to `V[X]`, `X + 1` registers (42_index_memory.md R182). -/
def State.firstRegs (s : State) (x : Reg) : List Byte := s.v.toList.take (x.val + 1)

/-- The registers after `V[k] <- MemRead(I + k, 1)` for `k` in 0 to `X` (42_index_memory.md R184). -/
def State.loadedRegs (s : State) (x : Reg) : Vector Byte 16 :=
  Vector.ofFn fun k : Fin 16 => if k ≤ x then s.byteAt (s.base + k.val) else s.v[k]

/-- The sprite of DRAW: `n` bytes from `I` (43_display.md R200). -/
def State.sprite (s : State) (n : Nat) : List Byte := s.mem.readBytes s.font s.base n

/-- Hundreds, tens and ones of a byte (42_index_memory.md R178). -/
def decimalDigits (b : Byte) : List Byte :=
  [BitVec.ofNat 8 (b.toNat / 100), BitVec.ofNat 8 (b.toNat / 10 % 10), BitVec.ofNat 8 (b.toNat % 10)]

/-- `V[X] * 5`, the whole byte (42_index_memory.md R176). -/
def glyphAddress (b : Byte) : Word := BitVec.ofNat 16 (b.toNat * 5)

/-- `(V[0] + NNN) mod 65536` (40_control_transfer.md R134). -/
def offsetTarget (v0 : Byte) (nnn : Nat) : Word := BitVec.ofNat 16 (v0.toNat + nnn)

/-- `(I + V[X]) mod 65536` (42_index_memory.md R174). -/
def indexSum (i : Word) (b : Byte) : Word := BitVec.ofNat 16 (i.toNat + b.toNat)

/-- `KEYS[k]` for a key index in 0 to 15; there is no key above (44_keypad_timers.md R224). -/
def State.keyAt (s : State) (k : Byte) : Option Bool := s.keys[k.toNat]?

/-- The highest pressed key, found scanning upward and keeping the last match (44_keypad_timers.md R216);
`none` when no key is pressed. -/
def highestKey (keys : Vector Bool 16) : Option Reg :=
  (List.finRange 16).foldl (fun found k => if keys[k] then some k else found) none

end Sys2Proof.Machine
end

