-- ==== Sys2Proof/Machine/Alu.lean ====
section
/-! DEFINITION. The register and ALU instructions (41_alu.md). -/

namespace Sys2Proof.Machine

/-- `V[X] <- b; PC <- PC + 2`: the shape of the instructions that leave `VF` alone (10_state.md R22). -/
def assign (x : Reg) (b : Byte) (s : State) : Result := done (s.setReg x b)

/-- `V[X] <- b; VF <- f; PC <- PC + 2`: the flag is written last, so with `X = 15` `VF` ends as the flag
(10_state.md R23). -/
def assignWithFlag (x : Reg) (b : Byte) (f : Bool) (s : State) : Result := done ((s.setReg x b).setFlag f)

/-- MOVI Vx, nn (R140). -/
def execMovi (x : Reg) (nn : Byte) (s : State) : Result := assign x nn s

/-- ADDI Vx, nn (R142): no flag change. -/
def execAddi (x : Reg) (nn : Byte) (s : State) : Result := assign x (s.reg x + nn) s

/-- MOV Vx, Vy (R144). -/
def execMov (x y : Reg) (s : State) : Result := assign x (s.reg y) s

/-- OR Vx, Vy (R146). -/
def execOr (x y : Reg) (s : State) : Result := assign x (s.reg x ||| s.reg y) s

/-- AND Vx, Vy (R148). -/
def execAnd (x y : Reg) (s : State) : Result := assign x (s.reg x &&& s.reg y) s

/-- XOR Vx, Vy (R150). -/
def execXor (x y : Reg) (s : State) : Result := assign x (s.reg x ^^^ s.reg y) s

/-- ADD Vx, Vy (R152). -/
def execAdd (x y : Reg) (s : State) : Result :=
  assignWithFlag x (s.reg x + s.reg y) (carryFlag (s.reg x) (s.reg y)) s

/-- SUB Vx, Vy (R154). -/
def execSub (x y : Reg) (s : State) : Result :=
  assignWithFlag x (s.reg x - s.reg y) (noBorrowFlag (s.reg x) (s.reg y)) s

/-- SHR Vx (R156): a logical shift of `V[X]`, never of `V[Y]`. -/
def execShr (x : Reg) (s : State) : Result :=
  assignWithFlag x (s.reg x >>> 1) (lowBitFlag (s.reg x)) s

/-- RSUB Vx, Vy (R158). -/
def execRsub (x y : Reg) (s : State) : Result :=
  assignWithFlag x (s.reg y - s.reg x) (noBorrowFlag (s.reg y) (s.reg x)) s

/-- SHL Vx (R160). -/
def execShl (x : Reg) (s : State) : Result :=
  assignWithFlag x (s.reg x <<< 1) (highBitFlag (s.reg x)) s

/-- RAND Vx, nn (R162): the free byte of this RAND, masked (R163; log 6). -/
def execRand (x : Reg) (nn : Byte) (s : State) : Result :=
  assign x (Config.rnd s.draws &&& nn) s.countDraw

end Sys2Proof.Machine
end

