-- ==== Sys2Proof/Machine/ControlTransfer.lean ====
section
/-! DEFINITION. The control transfer instructions (40_control_transfer.md). -/

namespace Sys2Proof.Machine

/-- RET (R120). -/
def execRet (s : State) : Result :=
  if s.sp = 0 then raise .stackUnderflow s
  else .next (s.pop.setPc (s.stackEntry (s.sp - 1)))

/-- JMP nnn (R122). -/
def execJmp (nnn : Nat) (s : State) : Result := .next (s.setPc (zext16 nnn))

/-- CALL nnn on a machine of stack capacity `cap` (R124). The stack is full at `SP = cap`, the largest
value `SP` takes (10_state.md R25; log 14). -/
def callWithCapacity (cap : Nat) (nnn : Nat) (s : State) : Result :=
  if cap ≤ s.sp then raise .stackOverflow s
  else .next ((s.push (s.pc + 2)).setPc (zext16 nnn))

/-- CALL nnn (R124). -/
def execCall (nnn : Nat) (s : State) : Result := callWithCapacity Config.stackCapacity nnn s

/-- SKEQI Vx, nn (R126). -/
def execSkeqi (x : Reg) (nn : Byte) (s : State) : Result := skipIf (s.reg x == nn) s

/-- SKNEI Vx, nn (R128). -/
def execSknei (x : Reg) (nn : Byte) (s : State) : Result := skipIf (s.reg x != nn) s

/-- SKEQ Vx, Vy (R130). -/
def execSkeq (x y : Reg) (s : State) : Result := skipIf (s.reg x == s.reg y) s

/-- SKNE Vx, Vy (R132). -/
def execSkne (x y : Reg) (s : State) : Result := skipIf (s.reg x != s.reg y) s

/-- JMPV0 nnn (R134): the register is always `V[0]`; the sum is not reduced to 12 bits. -/
def execJmpv0 (nnn : Nat) (s : State) : Result := .next (s.setPc (offsetTarget (s.reg 0) nnn))

end Sys2Proof.Machine
end

