-- ==== Sys2Proof/Machine/Display.lean ====
section
/-! DEFINITION. The display instructions and the sprite rasterizer (43_display.md). -/

namespace Sys2Proof.Machine

/-- `FB[y][x]` (10_state.md R29). -/
def Framebuffer.cell (fb : Framebuffer) (y : Fin 32) (x : Fin 64) : Bool := fb[y][x]

/-- `FB[y][x] <- FB[y][x] ^ 1` (43_display.md R194). -/
def Framebuffer.toggle (fb : Framebuffer) (y : Fin 32) (x : Fin 64) : Framebuffer :=
  fb.set y (fb[y].set x (!fb[y][x]))

/-- Every cell unset. -/
def Framebuffer.clear : Framebuffer := Vector.replicate 32 (Vector.replicate 64 false)

/-- The cell a sprite pixel at column `x`, row `y` lands on (43_display.md R194, R196): itself when in
bounds, both coordinates reduced under the wrap policy, else none. -/
def spriteTarget (wrap : Bool) (x y : Nat) : Option (Fin 32 × Fin 64) :=
  if h : y < 32 ∧ x < 64 then some (⟨y, h.1⟩, ⟨x, h.2⟩)
  else if wrap then some (⟨y % 32, Nat.mod_lt y (by decide)⟩, ⟨x % 64, Nat.mod_lt x (by decide)⟩)
  else none

/-- Draw one set pixel: test for collision, then toggle (43_display.md R194, R197). The pair is the
framebuffer and whether a collision has happened, which never goes back. -/
def drawPixel (wrap : Bool) (x y : Nat) (p : Framebuffer × Bool) : Framebuffer × Bool :=
  match spriteTarget wrap x y with
  | some (r, c) => (p.1.toggle r c, p.2 || p.1.cell r c)
  | none => p

/-- Draw one sprite byte at row `y`, columns `x0` to `x0 + 7`; bit `7 - col` is column `x0 + col`
(43_display.md R200). -/
def drawRow (wrap : Bool) (x0 y : Nat) (b : Byte) (p : Framebuffer × Bool) : Framebuffer × Bool :=
  (List.range 8).foldl
    (fun p col => if b.getLsbD (7 - col) then drawPixel wrap (x0 + col) y p else p) p

/-- Draw sprite bytes at rows `y`, `y + 1`, … (43_display.md R194). -/
def drawRows (wrap : Bool) (x0 : Nat) : Nat → List Byte → Framebuffer × Bool → Framebuffer × Bool
  | _, [], p => p
  | y, b :: bs, p => drawRows wrap x0 (y + 1) bs (drawRow wrap x0 y b p)

/-- CLS (R190). -/
def execCls (s : State) : Result := done (s.display Framebuffer.clear)

/-- The framebuffer and the collision after DRAW, from `VF = 0` before the loop; `V[X]` and `V[Y]` are
those before the instruction (R194, R195). -/
def State.rasterize (s : State) (x y : Reg) (n : Nat) : Framebuffer × Bool :=
  drawRows s.wrap (s.reg x).toNat (s.reg y).toNat (s.sprite n) (s.fb, false)

/-- DRAW Vx, Vy, n (R194): with `n = 0` no memory is read and nothing is drawn (R199). -/
def execDraw (x y : Reg) (n : Nat) (s : State) : Result :=
  doneUnless (rangeFault s.base n) s
    ((s.display (s.rasterize x y n).1).setFlag (s.rasterize x y n).2)

end Sys2Proof.Machine
end

