-- ==== Sys2Proof/Machine/IndexMemory.lean ====
section
/-! DEFINITION. The index register and memory instructions (42_index_memory.md). BCD, STREGS and LDREGS
leave `I` unchanged (R186) and test their whole range first (R187). -/

namespace Sys2Proof.Machine

/-- LDIDX nnn (R170). -/
def execLdidx (nnn : Nat) (s : State) : Result := done (s.setIndex (zext16 nnn))

/-- ADDIDX Vx (R174): the flag from the unreduced sum, written last. -/
def execAddidx (x : Reg) (s : State) : Result :=
  done ((s.setIndex (indexSum s.index (s.reg x))).setFlag (indexFlag s.index (s.reg x)))

/-- GLYPH Vx (R176). -/
def execGlyph (x : Reg) (s : State) : Result := done (s.setIndex (glyphAddress (s.reg x)))

/-- Store bytes from `I` upward, unless the range test of 20_memory.md R68 raises. -/
def storeFromIndex (bs : List Byte) (s : State) : Result :=
  doneUnless (rangeFault s.base bs.length) s (s.storeBytes s.base bs)

/-- BCD Vx (R178). -/
def execBcd (x : Reg) (s : State) : Result := storeFromIndex (decimalDigits (s.reg x)) s

/-- STREGS Vx (R182). -/
def execStregs (x : Reg) (s : State) : Result := storeFromIndex (s.firstRegs x) s

/-- LDREGS Vx (R184). -/
def execLdregs (x : Reg) (s : State) : Result :=
  doneUnless (rangeFault s.base (x.val + 1)) s (s.setRegs (s.loadedRegs x))

end Sys2Proof.Machine
end

