-- ==== Sys2Proof/Machine/KeypadTimers.lean ====
section
/-! DEFINITION. The keypad and timer instructions (44_keypad_timers.md). -/

namespace Sys2Proof.Machine

/-- The test of SKKEY and SKNKEY: skip when key `V[X]` is in the wanted position, raise when there is no
such key (R224). -/
def skipOnKey (x : Reg) (wanted : Bool) (s : State) : Result :=
  match s.keyAt (s.reg x) with
  | some pressed => skipIf (pressed == wanted) s
  | none => raise (.keyIndexOutOfRange (s.reg x)) s

/-- SKKEY Vx (R210). -/
def execSkkey (x : Reg) (s : State) : Result := skipOnKey x true s

/-- SKNKEY Vx (R212). -/
def execSknkey (x : Reg) (s : State) : Result := skipOnKey x false s

/-- WAITKEY Vx (R214): with no key pressed the state does not change at all, `PC` included (R217). -/
def execWaitkey (x : Reg) (s : State) : Result :=
  match highestKey s.keys with
  | none => .next s
  | some k => done (s.setReg x (BitVec.ofNat 8 k.val))

/-- RDDT Vx (R218). -/
def execRddt (x : Reg) (s : State) : Result := done (s.setReg x s.dt)

/-- WRDT Vx (R220): `ACC` is not reset. -/
def execWrdt (x : Reg) (s : State) : Result := done (s.setDelay (s.reg x))

/-- WRST Vx (R222): `SNDCHG` is set whatever the value. -/
def execWrst (x : Reg) (s : State) : Result := done (s.setSound (s.reg x))

end Sys2Proof.Machine
end

