-- ==== Sys2Proof/Machine/Dispatch.lean ====
section
/-! DEFINITION. One arm per instruction: its meaning. -/

namespace Sys2Proof.Machine

def exec (i : Instr) (s : State) : Host.Outcome State Fault Refusal :=
  match i with
  | .cls => Sys2Proof.Machine.execCls s
  | .ret => Sys2Proof.Machine.execRet s
  | .jmp nnn => Sys2Proof.Machine.execJmp nnn s
  | .call nnn => Sys2Proof.Machine.execCall nnn s
  | .skeqi x nn => Sys2Proof.Machine.execSkeqi x nn s
  | .sknei x nn => Sys2Proof.Machine.execSknei x nn s
  | .skeq x y => Sys2Proof.Machine.execSkeq x y s
  | .movi x nn => Sys2Proof.Machine.execMovi x nn s
  | .addi x nn => Sys2Proof.Machine.execAddi x nn s
  | .mov x y => Sys2Proof.Machine.execMov x y s
  | .or x y => Sys2Proof.Machine.execOr x y s
  | .and x y => Sys2Proof.Machine.execAnd x y s
  | .xor x y => Sys2Proof.Machine.execXor x y s
  | .add x y => Sys2Proof.Machine.execAdd x y s
  | .sub x y => Sys2Proof.Machine.execSub x y s
  | .shr x => Sys2Proof.Machine.execShr x s
  | .rsub x y => Sys2Proof.Machine.execRsub x y s
  | .shl x => Sys2Proof.Machine.execShl x s
  | .skne x y => Sys2Proof.Machine.execSkne x y s
  | .ldidx nnn => Sys2Proof.Machine.execLdidx nnn s
  | .jmpv0 nnn => Sys2Proof.Machine.execJmpv0 nnn s
  | .rand x nn => Sys2Proof.Machine.execRand x nn s
  | .draw x y n => Sys2Proof.Machine.execDraw x y n s
  | .skkey x => Sys2Proof.Machine.execSkkey x s
  | .sknkey x => Sys2Proof.Machine.execSknkey x s
  | .rddt x => Sys2Proof.Machine.execRddt x s
  | .waitkey x => Sys2Proof.Machine.execWaitkey x s
  | .wrdt x => Sys2Proof.Machine.execWrdt x s
  | .wrst x => Sys2Proof.Machine.execWrst x s
  | .addidx x => Sys2Proof.Machine.execAddidx x s
  | .glyph x => Sys2Proof.Machine.execGlyph x s
  | .bcd x => Sys2Proof.Machine.execBcd x s
  | .stregs x => Sys2Proof.Machine.execStregs x s
  | .ldregs x => Sys2Proof.Machine.execLdregs x s

end Sys2Proof.Machine
end

