-- ==== Sys2Proof/Machine/Events.lean ====
section
/-! DEFINITION. The events of 60_exceptions.md R255: Step (R256), the timer engine (R246), Reset
(70_reset_and_hazards.md R280), LoadImage (R284), and the host's other events and observations. -/

namespace Sys2Proof.Machine

/-! ### Step -/

/-- The Step event (60_exceptions.md R256): halted, nothing changes (R239); else fetch, decode, execute, in
this order of conditions (R238). -/
def stepEvent (s : State) : Result :=
  match s.fault with
  | some _ => .next s
  | none =>
    match fetch s with
    | .error c => raise c s
    | .ok w =>
      match decode w with
      | none => raise (.unknownInstruction w) s
      | some i => exec i s

/-! ### The timer engine -/

/-- A timer after one round: one less, never below 0 (60_exceptions.md R246). -/
def countDown (b : Byte) : Byte := if b = 0 then 0 else b - 1

/-- One decrement round, both timers together (60_exceptions.md R246, R247). -/
def State.timerRound (s : State) : State := { s with dt := countDown s.dt, st := countDown s.st }

/-- The loop of 60_exceptions.md R246, `while ACC >= PERIOD`: at most `fuel` times round. -/
def timerLoop (period : Nat) : Nat → State → State
  | 0, s => s
  | fuel + 1, s =>
    if period ≤ s.acc then timerLoop period fuel { s.timerRound with acc := s.acc - period } else s

/-- TimerAdvance(dt) for a given PERIOD and DT_CAP (60_exceptions.md R246). As PERIOD is positive, the
loop goes round at most `ACC` times (log 23). -/
def timerAdvanceWith (period cap dt : Nat) (s : State) : State :=
  timerLoop period (s.acc + min dt cap) { s with acc := s.acc + min dt cap }

/-- TimerAdvance(dt) of this machine (60_exceptions.md R246). -/
def timerAdvance (dt : Nat) (s : State) : State := timerAdvanceWith Config.period Config.dtCap dt s

/-! ### Reset and LoadImage -/

/-- The Reset event (70_reset_and_hazards.md R280): every element as 10_state.md R40 says, `WRAP`
unchanged, and memory the font of this machine, then zeros. The parameter `font` and the model's own `draws`,
`schedule`, `environment` and `reply` are not the machine's state and stay (log 2, log 15). -/
def resetEvent (s : State) : State :=
  { State.reset with
    wrap := s.wrap, font := s.font, draws := s.draws, schedule := s.schedule,
    environment := s.environment, reply := s.reply }

/-- Where LoadImage writes and the first instruction stands (70_reset_and_hazards.md R282, R284). -/
def loadAddress : Nat := 0x200

/-- The LoadImage event (70_reset_and_hazards.md R284): too long an image writes nothing. -/
def loadImage (image : List Byte) (s : State) : State :=
  if image.length > memSize - loadAddress then
    { s with reply := .imageTooLarge, lifecycle := .loadFailed }
  else
    { s.storeBytes loadAddress image with reply := .loaded, lifecycle := .ready }

/-! ### The host's other events -/

/-- SetKeys (60_exceptions.md R250): a wholesale replacement. -/
def setKeys (keys : Vector Bool 16) (s : State) : State := { s with keys := keys }

/-- SetWrapPolicy (60_exceptions.md R253). -/
def setWrapPolicy (wrap : Bool) (s : State) : State := { s with wrap := wrap }

/-- ConsumeRedraw: read, then clear (60_exceptions.md R251). -/
def consumeRedraw (s : State) : State := { s with reply := .flag s.redraw, redraw := false }

/-- ConsumeSoundChanged: read, then clear (60_exceptions.md R252). -/
def consumeSoundChanged (s : State) : State := { s with reply := .flag s.sndchg, sndchg := false }

/-! ### Observations, which change nothing (60_exceptions.md R255) -/

/-- FrameBuffer (R251). -/
def State.frameBuffer (s : State) : Framebuffer := s.fb

/-- SoundTimerValue (R252). -/
def State.soundTimerValue (s : State) : Byte := s.st

/-- The tone is on exactly while `ST != 0` (R252). -/
def State.toneOn (s : State) : Bool := s.soundTimerValue != 0

/-- WrapPolicyEnabled (R253). -/
def State.wrapPolicyEnabled (s : State) : Bool := s.wrap

/-! ### Which event comes next -/

/-- What the model does not accept (93_implementation_defined.md U14, U18; log 8). -/
def refusalOf : Lifecycle → Event → Option Refusal
  | .constructed, .reset => none
  | .constructed, .setWrapPolicy _ => none
  | .constructed, _ => some .beforeFirstReset
  | .loadFailed, .step => some .afterFailedLoad
  | .loadFailed, _ => none
  | .ready, _ => none

/-- The effect of an accepted event (60_exceptions.md R255). -/
def eventEffect (e : Event) (s : State) : Result :=
  match e with
  | .reset => .next (resetEvent s)
  | .loadImage image => .next (loadImage image s)
  | .step => stepEvent s
  | .timerAdvance dt => .next (timerAdvance dt s)
  | .tick => .next s.timerRound
  | .setKeys keys => .next (setKeys keys s)
  | .setWrapPolicy wrap => .next (setWrapPolicy wrap s)
  | .consumeRedraw => .next (consumeRedraw s)
  | .consumeSoundChanged => .next (consumeSoundChanged s)

/-- One event, accepted or refused. -/
def runEvent (e : Event) (s : State) : Result :=
  match refusalOf s.lifecycle e with
  | some r => .refused r
  | none => eventEffect e s

/-- The next event, and the state with it taken: the oldest of the schedule; when that is empty, what the
environment gives, a Step or the next of the host's free events (60_exceptions.md R257; log 7). -/
def State.takeEvent (s : State) : Event × State :=
  match s.schedule with
  | e :: rest => (e, s.withSchedule rest)
  | [] =>
    match s.environment with
    | .stepsOnly => (.step, s)
    | .free n => (Config.hostEvent n, s.withEnvironment (.free (n + 1)))

/-- Take the next event and perform it (60_exceptions.md R255, R257). -/
def nextEvent (s : State) : Result := runEvent s.takeEvent.1 s.takeEvent.2

end Sys2Proof.Machine
end

