-- ==== Sys2Proof/Machine/Step.lean ====
section
/-! DEFINITION. One step of the machine, and how the host places an instruction for it. -/

namespace Sys2Proof.Machine

/-- One step: the host's next event; from `State.reset`, a Step of the interpreter (log 7). -/
def step (s : State) : Host.Outcome State Fault Refusal := nextEvent s

/-- The instruction whose table bits are `w`, stored where `step` fetches next, with what that step needs:
a Step as the next event, Steps accepted, not halted, `PC` in memory (log 13). -/
def State.withFetchWord (s : State) (nbits w : Nat) : State :=
  let pc := if s.pc.toNat + 1 < memSize then s.pc else 0x200
  { s with
    pc := pc
    mem := s.mem.writeBytes s.font pc.toNat (bytesOfWord (tableWord nbits w))
    fault := none
    lifecycle := .ready
    schedule := []
    environment := .stepsOnly }

end Sys2Proof.Machine
end

