-- ==== Sys2Proof/Safety.lean ====
section
/-! DEFINITION. The terms in which claims about a run are stated: the parts of the state and what is
unchanged, the invariants of 10_state.md R42, running, halted and parked states (60_exceptions.md R239,
R263), and which cells a sprite covers (43_display.md R194). -/

namespace Sys2Proof.Machine

/-! ### Parts of the state and frames -/

/-- The parts of the state, one name per element of 10_state.md R41, one for the parameter `FONT`, and one per
field of the model's own. -/
inductive Part where
  | reg (x : Reg)
  | index
  | pc
  | stack
  | delay
  | sound
  | framebuffer
  | keys
  | wrap
  | redraw
  | soundChanged
  | memory
  | font
  | accumulator
  | fault
  | draws
  | lifecycle
  | schedule
  | environment
  | reply
  deriving DecidableEq, Repr

/-- A part is the same in both states. Of memory: every address reads the same byte; of the stack: the same
depth and the same entries. -/
def Part.same (s t : State) : Part → Prop
  | .reg x => t.reg x = s.reg x
  | .index => t.index = s.index
  | .pc => t.pc = s.pc
  | .stack => t.sp = s.sp ∧ ∀ k, t.stackEntry k = s.stackEntry k
  | .delay => t.dt = s.dt
  | .sound => t.st = s.st
  | .framebuffer => ∀ y x, t.fb.cell y x = s.fb.cell y x
  | .keys => t.keys = s.keys
  | .wrap => t.wrap = s.wrap
  | .redraw => t.redraw = s.redraw
  | .soundChanged => t.sndchg = s.sndchg
  | .memory => ∀ a, t.byteAt a = s.byteAt a
  | .font => t.font = s.font
  | .accumulator => t.acc = s.acc
  | .fault => t.fault = s.fault
  | .draws => t.draws = s.draws
  | .lifecycle => t.lifecycle = s.lifecycle
  | .schedule => t.schedule = s.schedule
  | .environment => t.environment = s.environment
  | .reply => t.reply = s.reply

/-- From `s` to `t` every part is unchanged except, possibly, the parts listed. -/
def unchangedExcept (parts : List Part) (s t : State) : Prop := ∀ p, p ∉ parts → p.same s t

/-- Registers `V[0]` to `V[x]` as parts (42_index_memory.md R184). -/
def regsUpTo (x : Reg) : List Part := ((List.finRange 16).filter (· ≤ x)).map Part.reg

/-! ### Which states -/

/-- The next event of `s` is `e`, and `u` is `s` with that event taken: the oldest of the schedule, or with
nothing scheduled a Step, or the next of the host's free events (60_exceptions.md R257; log 7). -/
def State.comesNext (s : State) (e : Event) (u : State) : Prop :=
  (∃ rest, s.schedule = e :: rest ∧ u = s.withSchedule rest) ∨
  (s.schedule = [] ∧ s.environment = .stepsOnly ∧ e = .step ∧ u = s) ∨
  (∃ n, s.schedule = [] ∧ s.environment = .free n ∧ e = Config.hostEvent n ∧
    u = s.withEnvironment (.free (n + 1)))

/-- The next event of `s` is a Step that executes an instruction, accepted and not halted, on `u`. -/
def State.running (s u : State) : Prop := s.lifecycle = .ready ∧ s.fault = none ∧ s.comesNext .step u

/-- Halted: a failed run (60_exceptions.md R239, R263). -/
def State.halted (s : State) : Prop := s.fault ≠ none

/-- Parked: the instruction at `PC` is `JMP PC`, the word 0x1000 | `PC` with `PC <= 0x0FFE`
(60_exceptions.md R263). -/
def State.parked (s : State) : Prop :=
  s.pc.toNat ≤ 0x0FFE ∧ fetch s = .ok (0x1000#16 ||| s.pc)

/-- The invariants of 10_state.md R42 that the types of the fields do not hold by themselves, and memory's
canonical form. -/
def State.Inv (s : State) : Prop :=
  s.sp ≤ Config.stackCapacity ∧ s.acc < Config.period ∧ s.memWf

/-! ### Sprites -/

/-- A sprite pixel at column `x`, row `y` lands on the cell of row `r`, column `c` (43_display.md R194,
R196): inside the framebuffer on its own cell, outside it on the reduced cell under the wrap policy. -/
def landsOn (wrap : Bool) (x y : Nat) (r : Fin 32) (c : Fin 64) : Prop :=
  if x ≤ 63 ∧ y ≤ 31 then x = c.val ∧ y = r.val
  else wrap = true ∧ x % 64 = c.val ∧ y % 32 = r.val

/-- DRAW Vx, Vy, n covers a cell: some set pixel of the sprite lands on it (43_display.md R194, R200).
Bit `7 - col` of byte `row` is the pixel of column `col`. -/
def State.covers (s : State) (x y : Reg) (n : Nat) (r : Fin 32) (c : Fin 64) : Prop :=
  ∃ row < n, ∃ col < 8, (s.byteAt (s.base + row)).getLsbD (7 - col) = true ∧
    landsOn s.wrap ((s.reg x).toNat + col) ((s.reg y).toNat + row) r c

/-! ### Which instruction writes or raises what -/

/-- The instructions that can leave another value in `VF` (10_state.md R22): those that write it as a flag,
and those whose destination register is `V[15]`. -/
def mayWriteVF : Instr → Bool
  | .add _ _ | .sub _ _ | .shr _ | .rsub _ _ | .shl _ | .addidx _ | .draw _ _ _ => true
  | .movi x _ | .addi x _ | .mov x _ | .or x _ | .and x _ | .xor x _ | .rand x _ | .rddt x
  | .waitkey x | .ldregs x => x == regVF
  | .cls | .ret | .jmp _ | .call _ | .skeqi _ _ | .sknei _ _ | .skeq _ _ | .skne _ _ | .ldidx _
  | .jmpv0 _ | .skkey _ | .sknkey _ | .wrdt _ | .wrst _ | .glyph _ | .bcd _ | .stregs _ => false

/-- A MemoryOutOfRange condition, whatever its address. -/
def Condition.isMemoryOutOfRange : Condition → Bool
  | .memoryOutOfRange _ => true
  | .unknownInstruction _ | .stackOverflow | .stackUnderflow | .keyIndexOutOfRange _ => false

/-- A KeyIndexOutOfRange condition, whatever its value. -/
def Condition.isKeyIndexOutOfRange : Condition → Bool
  | .keyIndexOutOfRange _ => true
  | .unknownInstruction _ | .stackOverflow | .stackUnderflow | .memoryOutOfRange _ => false

/-- The conditions an instruction's own test can raise (60_exceptions.md R238): at most one kind each. -/
def canRaise (i : Instr) (c : Condition) : Bool :=
  match i with
  | .call _ => c == .stackOverflow
  | .ret => c == .stackUnderflow
  | .skkey _ | .sknkey _ => c.isKeyIndexOutOfRange
  | .draw _ _ _ | .bcd _ | .stregs _ | .ldregs _ => c.isMemoryOutOfRange
  | .cls | .jmp _ | .skeqi _ _ | .sknei _ _ | .skeq _ _ | .movi _ _ | .addi _ _ | .mov _ _ | .or _ _
  | .and _ _ | .xor _ _ | .add _ _ | .sub _ _ | .shr _ | .rsub _ _ | .shl _ | .skne _ _ | .ldidx _
  | .jmpv0 _ | .rand _ _ | .rddt _ | .waitkey _ | .wrdt _ | .wrst _ | .addidx _ | .glyph _ => false

/-- The parts, other than `PC` and `FAULT`, that an instruction may write (10_state.md R41 and the rules of
files 40 to 44). -/
def writes : Instr → List Part
  | .cls => [.framebuffer, .redraw]
  | .ret => [.stack]
  | .call _ => [.stack]
  | .jmp _ | .jmpv0 _ | .skeqi _ _ | .sknei _ _ | .skeq _ _ | .skne _ _ | .skkey _ | .sknkey _ => []
  | .movi x _ | .addi x _ | .mov x _ | .or x _ | .and x _ | .xor x _ | .rddt x | .waitkey x => [.reg x]
  | .add x _ | .sub x _ | .shr x | .rsub x _ | .shl x => [.reg x, .reg regVF]
  | .rand x _ => [.reg x, .draws]
  | .ldidx _ | .glyph _ => [.index]
  | .addidx _ => [.index, .reg regVF]
  | .draw _ _ _ => [.framebuffer, .redraw, .reg regVF]
  | .wrdt _ => [.delay]
  | .wrst _ => [.sound, .soundChanged]
  | .bcd _ | .stregs _ => [.memory]
  | .ldregs x => regsUpTo x

end Sys2Proof.Machine
end

