-- ==== Sys2Proof/Certificates/Slice0/Obligations.lean ====
section
/-! DEFINITION. The statements for the provers, from the numbered rules of spec/. Each says which rule it
formalises. `exec i s = .next t` with what `t` holds says that the instruction completes there;
`unchangedExcept` is its frame, and says of memory that every address reads as before. -/

open Sys2Proof Sys2Proof.Machine

/-! ### Encoding (30_encoding.md) -/

/-- Decode and encode agree, for every instruction and every operand its encoding admits (R93, R96, R97).
The numeric values and places of the fields are presumed by the spec (D1, D2; log 1). -/
def Obligations.DecodeOfEncodeIsIdentity : Prop :=
  ∀ i : Instr, i.wellFormed = true → decode (encode i) = some i

/-- The other direction: a recognised word decodes to a well-formed instruction, whose word it is, but for
the Y field that SHR and SHL ignore and the encoder writes as 0 (R96, R100, R102; log 1, log 20). -/
def Obligations.EncodeOfDecodeIsIdentity : Prop :=
  ∀ (w : Word) (i : Instr), decode w = some i →
    i.wellFormed = true ∧
    ((∀ x, i ≠ .shr x ∧ i ≠ .shl x) → encode i = w) ∧
    (∀ x, i = .shr x ∨ i = .shl x → encode i = w &&& 0xFF0F#16)

/-- R96: a word selects the row for which (w & mask) == match; the rows are mutually exclusive. The match
values are presumed by the spec (D1; log 1). -/
def Obligations.DecodeSelectsTheOpcodeRow : Prop :=
  (∀ (w : Word) (r : OpcodeRow), r ∈ opcodeMap →
    (r.selects w = true ↔ ∃ i, decode w = some i ∧ i.mnemonic = r.mnemonic)) ∧
  (∀ (w : Word) (r q : OpcodeRow), r ∈ opcodeMap → q ∈ opcodeMap →
    r.selects w = true → q.selects w = true → r = q)

/-- The table of R99: which words are unrecognised, class by class (the numeric values D1, the strict
matching D3; log 1). -/
def Obligations.UnrecognisedWordsByClass : Prop :=
  ∀ w : Word, decode w = none ↔
    (fieldOp w = 0x0 ∧ w ≠ 0x00E0#16 ∧ w ≠ 0x00EE#16) ∨
    (fieldOp w = 0x5 ∧ fieldN w ≠ 0) ∨
    (fieldOp w = 0x8 ∧ fieldN w ∈ [0x8, 0x9, 0xA, 0xB, 0xC, 0xD, 0xF]) ∨
    (fieldOp w = 0x9 ∧ fieldN w ≠ 0) ∨
    (fieldOp w = 0xE ∧ fieldNN w ∉ [0x9E#8, 0xA1#8]) ∨
    (fieldOp w = 0xF ∧
      fieldNN w ∉ [0x07#8, 0x0A#8, 0x15#8, 0x18#8, 0x1E#8, 0x29#8, 0x33#8, 0x55#8, 0x65#8])

/-- R100: SHR and SHL decode alike for every Y; no other recognised instruction has an ignored field, so
two words that decode to one instruction are one word (numeric values: D1; log 1). -/
def Obligations.OnlyShiftsIgnoreAField : Prop :=
  (∀ x y : Reg, decode (encodeXY 0x8#4 x y 0x6#4) = some (.shr x) ∧
    decode (encodeXY 0x8#4 x y 0xE#4) = some (.shl x)) ∧
  (∀ (w w' : Word) (i : Instr), decode w = some i → decode w' = some i →
    (∀ x, i ≠ .shr x ∧ i ≠ .shl x) → w = w')

/-- A few words written out from R96, one of each format of R95 (95_test_vectors.md part 2; numeric
values: D1, D2; log 1). -/
def Obligations.SampleWordsDecode : Prop :=
  decode 0x00E0#16 = some .cls ∧ decode 0x2FFF#16 = some (.call 0xFFF) ∧
  decode 0x3A7F#16 = some (.skeqi 10 0x7F) ∧ decode 0x8AB7#16 = some (.rsub 10 11) ∧
  decode 0xD12F#16 = some (.draw 1 2 15) ∧ decode 0xF533#16 = some (.bcd 5) ∧
  decode 0x8AB6#16 = some (.shr 10) ∧ decode 0x5121#16 = none ∧ decode 0x0000#16 = none

/-! ### Fetch, Step, conditions (20_memory.md, 60_exceptions.md) -/

/-- R69: the byte at the lower address is bits 15 to 8 of the word; a fetch outside memory raises
MemoryOutOfRange with the address that is out of range, and nothing else changes (raising there is the spec's
own decision D7; log 11). -/
def Obligations.FetchIsBigEndianAndRangeChecked : Prop :=
  (∀ s : State, s.pc.toNat ≤ 4094 → ∃ w, fetch s = .ok w ∧
    w.toNat = (s.byteAt s.pc.toNat).toNat * 256 + (s.byteAt (s.pc.toNat + 1)).toNat) ∧
  (∀ s u : State, s.running u → s.pc.toNat = 4095 → step s = .next (u.setFault (.memoryOutOfRange 4096))) ∧
  (∀ s u : State, s.running u → 4096 ≤ s.pc.toNat →
    step s = .next (u.setFault (.memoryOutOfRange s.pc.toNat)))

/-- A step runs the decoded instruction: when the bytes at `PC` decode to `i`, the step is `exec i`, with
nothing added around it (R256; 00_scope.md R11: each instruction advances `PC` itself) but that the Step is taken
from the model's schedule or environment: `u` is `s` with the Step taken (log 7). -/
def Obligations.StepRunsTheDecodedInstruction : Prop :=
  ∀ (s u : State) (i : Instr), s.running u → s.pc.toNat + 1 < 4096 →
    decode (wordOfBytes (s.byteAt s.pc.toNat) (s.byteAt (s.pc.toNat + 1))) = some i →
    step s = exec i u

/-- R230: an unrecognised word raises UnknownInstruction, which records the word; `PC` still addresses it
and nothing else changes (FAULT as the record: D17; log 10). -/
def Obligations.UnrecognisedWordHalts : Prop :=
  ∀ (s u : State) (w : Word), s.running u → fetch s = .ok w → decode w = none →
    ∃ t, step s = .next t ∧ t.fault = some (.unknownInstruction w) ∧ unchangedExcept [.fault] u t

/-- R239: while FAULT is not None a Step changes nothing, and FAULT keeps the first condition; TimerAdvance still
counts the timers down and SetKeys still replaces the snapshot, and both leave FAULT and the interpreter's
state alone. The spec's own decision D17 (log 10); the events come from the model's schedule or environment, and
`u` is `s` with the event taken (log 7); the machine has been reset (log 8). What `timerAdvanceWith`
does is TimerAdvanceClosedForm. -/
def Obligations.HaltedMachineIsFrozen : Prop :=
  ∀ s : State, s.halted → s.lifecycle = .ready →
    (∀ u, s.comesNext .step u → step s = .next u) ∧
    (∀ dt u, s.comesNext (.timerAdvance dt) u → ∃ t, step s = .next t ∧
      t = timerAdvanceWith Config.period Config.dtCap dt u ∧
      unchangedExcept [.delay, .sound, .accumulator] u t) ∧
    (∀ keys u, s.comesNext (.setKeys keys) u → ∃ t, step s = .next t ∧ t.keys = keys ∧
      unchangedExcept [.keys] u t)

/-- R237: conditions are precise. Whatever instruction a Step runs, if it ends with FAULT set, the state is
the state before the Step but for FAULT, with `PC` addressing the instruction that failed (D7, D8, D17;
log 10, 11). -/
def Obligations.ConditionsArePrecise : Prop :=
  ∀ s t u : State, s.running u → step s = .next t → t.fault ≠ none → ∃ c, t = u.setFault c

/-- R238: no instruction has more than one own test; the conditions each can raise are those of
`canRaise`, and the other 26 instructions raise none (the spec's inference from files 40 to 44). -/
def Obligations.EachInstructionRaisesOnlyItsOwnCondition : Prop :=
  ∀ (i : Instr) (s t : State) (c : Condition), s.fault = none → exec i s = .next t →
    t.fault = some c → canRaise i c = true

/-- Every instruction answers a next state in every state: none is refused and none stops the machine (the
conditions of R235 are next states by R236; log 10). -/
def Obligations.EveryInstructionAnswersANextState : Prop :=
  ∀ (i : Instr) (s : State), ∃ t, exec i s = .next t

/-- The writers of each element (10_state.md R41 with the instruction rules): an instruction leaves every
part alone that is not in `writes i`, `PC` and FAULT apart. So memory is written by BCD and STREGS only, the
framebuffer and REDRAW by CLS and DRAW only (R29, R33), the stack by CALL and RET only (R25), `I` by LDIDX,
ADDIDX and GLYPH only (R24), SNDCHG by WRST only (R34), and no instruction writes KEYS, WRAP, ACC or the font.
Which bytes BCD and STREGS leave is in their own statements; RAND's count of bytes taken is the model's (log 6). -/
def Obligations.InstructionsWriteOnlyTheirParts : Prop :=
  ∀ (i : Instr) (s t : State), exec i s = .next t →
    unchangedExcept (.pc :: .fault :: writes i) s t

/-- R22: no instruction outside the table of flag writers changes VF unless its destination is V[15]. -/
def Obligations.OnlyFlagWritersChangeVF : Prop :=
  ∀ (i : Instr) (s t : State), exec i s = .next t → mayWriteVF i = false →
    t.reg regVF = s.reg regVF

/-- No instruction reads ST, ACC, REDRAW or SNDCHG (10_state.md R28, R33, R34, R36): run from two states
that differ in these alone, it ends in two states that differ in these alone. -/
def Obligations.UnreadElementsDoNotInterfere : Prop :=
  ∀ (i : Instr) (s s' t : State),
    s' = { s with st := s'.st, acc := s'.acc, redraw := s'.redraw, sndchg := s'.sndchg } →
    exec i s = .next t →
    ∃ t', exec i s' = .next t' ∧
      t' = { t with st := t'.st, acc := t'.acc, redraw := t'.redraw, sndchg := t'.sndchg }

/-! ### Control transfer (40_control_transfer.md) -/

/-- R122: JMP sets `PC` to NNN zero-extended, and changes nothing else. -/
def Obligations.JmpSetsPc : Prop :=
  ∀ (nnn : Nat) (s : State), nnn < 4096 → ∃ t, exec (.jmp nnn) s = .next t ∧
    t.pc.toNat = nnn ∧ unchangedExcept [.pc] s t

/-- R134: JMPV0 sets `PC` to V[0] + NNN, not reduced to 12 bits (the spec's own decision D12; log 16). -/
def Obligations.Jmpv0AddsRegisterZero : Prop :=
  ∀ (nnn : Nat) (s : State), nnn < 4096 → ∃ t, exec (.jmpv0 nnn) s = .next t ∧
    t.pc.toNat = (s.reg 0).toNat + nnn ∧ unchangedExcept [.pc] s t

/-- R124: CALL with room pushes PC + 2 and jumps; with the stack full it raises StackOverflow and nothing
else changes. Rests on the spec's decisions D5 (the capacity, log 3), D6 (a count of entries in use, log 16) and
D17 (raising is a next state with FAULT set, log 10). -/
def Obligations.CallPushesOrOverflows : Prop :=
  ∀ (nnn : Nat) (s : State), nnn < 4096 →
    (s.sp < Config.stackCapacity → ∃ t, exec (.call nnn) s = .next t ∧
      t.stackEntry s.sp = s.pc + 2 ∧ (∀ k, k ≠ s.sp → t.stackEntry k = s.stackEntry k) ∧
      t.sp = s.sp + 1 ∧ t.pc.toNat = nnn ∧ unchangedExcept [.stack, .pc] s t) ∧
    (s.sp = Config.stackCapacity →
      ∃ t, exec (.call nnn) s = .next t ∧ t.fault = some .stackOverflow ∧ unchangedExcept [.fault] s t)

/-- R120: RET with an entry in use pops it into `PC`, the popped entry keeping its value (the spec's decision D6;
log 16); with the stack empty it raises StackUnderflow and nothing else changes (raising is a next state with
FAULT set: D17; log 10). -/
def Obligations.RetPopsOrUnderflows : Prop :=
  ∀ s : State, s.sp ≤ Config.stackCapacity →
    (0 < s.sp → ∃ t, exec .ret s = .next t ∧ t.sp = s.sp - 1 ∧ t.pc = s.stackEntry (s.sp - 1) ∧
      (∀ k, t.stackEntry k = s.stackEntry k) ∧ unchangedExcept [.stack, .pc] s t) ∧
    (s.sp = 0 →
      ∃ t, exec .ret s = .next t ∧ t.fault = some .stackUnderflow ∧ unchangedExcept [.fault] s t)

/-- A CALL and then a RET: `PC` is the address after the CALL, the stack is as deep as before, and nothing
else has changed but the entry that was free and now keeps the popped address (95_test_vectors.md S10; R120,
R124; that it keeps it is D6; log 16). -/
def Obligations.RetAfterCallReturnsToTheNextInstruction : Prop :=
  ∀ (nnn : Nat) (s : State), s.sp < Config.stackCapacity →
    ∃ t u, exec (.call nnn) s = .next t ∧ exec .ret t = .next u ∧
      u.pc = s.pc + 2 ∧ u.sp = s.sp ∧ u.stackEntry s.sp = s.pc + 2 ∧
      (∀ k, k ≠ s.sp → u.stackEntry k = s.stackEntry k) ∧ unchangedExcept [.stack, .pc] s u

/-- R126, R128: SKEQI and SKNEI compare V[X] with NN as 8-bit unsigned numbers and add 4 or 2 to `PC`. -/
def Obligations.ImmediateSkips : Prop :=
  ∀ (x : Reg) (nn : Byte) (s : State),
    (∃ t, exec (.skeqi x nn) s = .next t ∧
      t.pc = (if (s.reg x).toNat = nn.toNat then s.pc + 4 else s.pc + 2) ∧ unchangedExcept [.pc] s t) ∧
    (∃ t, exec (.sknei x nn) s = .next t ∧
      t.pc = (if (s.reg x).toNat ≠ nn.toNat then s.pc + 4 else s.pc + 2) ∧ unchangedExcept [.pc] s t)

/-- R130, R132: SKEQ and SKNE compare V[X] with V[Y] and add 4 or 2 to `PC`. -/
def Obligations.RegisterSkips : Prop :=
  ∀ (x y : Reg) (s : State),
    (∃ t, exec (.skeq x y) s = .next t ∧
      t.pc = (if (s.reg x).toNat = (s.reg y).toNat then s.pc + 4 else s.pc + 2) ∧
      unchangedExcept [.pc] s t) ∧
    (∃ t, exec (.skne x y) s = .next t ∧
      t.pc = (if (s.reg x).toNat ≠ (s.reg y).toNat then s.pc + 4 else s.pc + 2) ∧
      unchangedExcept [.pc] s t)

/-! ### Registers and ALU (41_alu.md) -/

/-- R140, R142: MOVI writes NN; ADDI writes (V[X] + NN) mod 256; neither writes VF unless X is 15. -/
def Obligations.ImmediateResults : Prop :=
  ∀ (x : Reg) (nn : Byte) (s : State),
    (∃ t, exec (.movi x nn) s = .next t ∧ t.reg x = nn ∧ t.pc = s.pc + 2 ∧
      unchangedExcept [.reg x, .pc] s t) ∧
    (∃ t, exec (.addi x nn) s = .next t ∧ (t.reg x).toNat = ((s.reg x).toNat + nn.toNat) % 256 ∧
      t.pc = s.pc + 2 ∧ unchangedExcept [.reg x, .pc] s t)

/-- R144, R146, R148, R150: MOV copies V[Y]; OR, AND and XOR combine the operands bit by bit; none of the
four writes VF unless X is 15. -/
def Obligations.CopyAndLogicResults : Prop :=
  ∀ (x y : Reg) (s : State),
    (∃ t, exec (.mov x y) s = .next t ∧ t.reg x = s.reg y ∧ t.pc = s.pc + 2 ∧
      unchangedExcept [.reg x, .pc] s t) ∧
    (∃ t, exec (.or x y) s = .next t ∧
      (∀ k < 8, (t.reg x).getLsbD k = ((s.reg x).getLsbD k || (s.reg y).getLsbD k)) ∧
      t.pc = s.pc + 2 ∧ unchangedExcept [.reg x, .pc] s t) ∧
    (∃ t, exec (.and x y) s = .next t ∧
      (∀ k < 8, (t.reg x).getLsbD k = ((s.reg x).getLsbD k && (s.reg y).getLsbD k)) ∧
      t.pc = s.pc + 2 ∧ unchangedExcept [.reg x, .pc] s t) ∧
    (∃ t, exec (.xor x y) s = .next t ∧
      (∀ k < 8, (t.reg x).getLsbD k = ((s.reg x).getLsbD k ^^ (s.reg y).getLsbD k)) ∧
      t.pc = s.pc + 2 ∧ unchangedExcept [.reg x, .pc] s t)

/-- R152 with 10_state.md R23: ADD writes the sum mod 256 to V[X], then the carry to VF, so that with X = 15
VF ends as the carry (the spec's own decision D9; log 16). -/
def Obligations.AddResultAndCarry : Prop :=
  ∀ (x y : Reg) (s : State), ∃ t, exec (.add x y) s = .next t ∧
    (x ≠ 15 → (t.reg x).toNat = ((s.reg x).toNat + (s.reg y).toNat) % 256) ∧
    (t.reg 15).toNat = (if (s.reg x).toNat + (s.reg y).toNat > 255 then 1 else 0) ∧
    t.pc = s.pc + 2 ∧ unchangedExcept [.reg x, .reg 15, .pc] s t

/-- R154, R158 with 10_state.md R23: SUB writes V[X] - V[Y] mod 256 and RSUB V[Y] - V[X] mod 256 to V[X];
VF is then 1 when there is no borrow, equal operands included (X = 15: D9; log 16). -/
def Obligations.SubtractionResultsAndNoBorrow : Prop :=
  ∀ (x y : Reg) (s : State),
    (∃ t, exec (.sub x y) s = .next t ∧
      (x ≠ 15 → (t.reg x).toNat = ((s.reg x).toNat + 256 - (s.reg y).toNat) % 256) ∧
      (t.reg 15).toNat = (if (s.reg x).toNat ≥ (s.reg y).toNat then 1 else 0) ∧
      t.pc = s.pc + 2 ∧ unchangedExcept [.reg x, .reg 15, .pc] s t) ∧
    (∃ t, exec (.rsub x y) s = .next t ∧
      (x ≠ 15 → (t.reg x).toNat = ((s.reg y).toNat + 256 - (s.reg x).toNat) % 256) ∧
      (t.reg 15).toNat = (if (s.reg y).toNat ≥ (s.reg x).toNat then 1 else 0) ∧
      t.pc = s.pc + 2 ∧ unchangedExcept [.reg x, .reg 15, .pc] s t)

/-- R156, R160 with 10_state.md R23: SHR halves V[X] and SHL doubles it mod 256; VF is then the old bit 0 or
the old bit 7. No other register is read or written. -/
def Obligations.ShiftResultsAndBitOut : Prop :=
  ∀ (x : Reg) (s : State),
    (∃ t, exec (.shr x) s = .next t ∧ (x ≠ 15 → (t.reg x).toNat = (s.reg x).toNat / 2) ∧
      (t.reg 15).toNat = (s.reg x).toNat % 2 ∧
      t.pc = s.pc + 2 ∧ unchangedExcept [.reg x, .reg 15, .pc] s t) ∧
    (∃ t, exec (.shl x) s = .next t ∧ (x ≠ 15 → (t.reg x).toNat = (s.reg x).toNat * 2 % 256) ∧
      (t.reg 15).toNat = (s.reg x).toNat / 128 ∧
      t.pc = s.pc + 2 ∧ unchangedExcept [.reg x, .reg 15, .pc] s t)

/-- R162: RAND writes rnd AND NN, where rnd is the free byte of this RAND, so no bit outside NN is set; VF is
not written unless X is 15. The next RAND takes the next byte, which is supplied afresh (R163): `draws` is the
model's own field (log 6), and the statement holds for every value of
it and of the byte. -/
def Obligations.RandMasksTheFreeByte : Prop :=
  ∀ (x : Reg) (nn : Byte) (s : State), ∃ t, exec (.rand x nn) s = .next t ∧
    t.reg x = (Config.rnd s.draws &&& nn) ∧ (t.reg x &&& ~~~nn) = 0 ∧
    t.draws = s.draws + 1 ∧ t.pc = s.pc + 2 ∧ unchangedExcept [.reg x, .draws, .pc] s t

/-! ### Index register and memory (42_index_memory.md) -/

/-- R170, R176: LDIDX sets `I` to NNN; GLYPH sets it to V[X] * 5, the whole byte multiplied. -/
def Obligations.IndexIsLoaded : Prop :=
  (∀ (nnn : Nat) (s : State), nnn < 4096 → ∃ t, exec (.ldidx nnn) s = .next t ∧
    t.index.toNat = nnn ∧ t.pc = s.pc + 2 ∧ unchangedExcept [.index, .pc] s t) ∧
  (∀ (x : Reg) (s : State), ∃ t, exec (.glyph x) s = .next t ∧
    t.index.toNat = (s.reg x).toNat * 5 ∧ t.pc = s.pc + 2 ∧ unchangedExcept [.index, .pc] s t)

/-- R174: ADDIDX adds V[X] to `I` mod 65536; VF is 1 when the unreduced sum exceeds 0x0FFF, else 0
(unreduced, and 16 bits kept: D11; X = 15: D9; log 16). -/
def Obligations.AddidxSumAndFlag : Prop :=
  ∀ (x : Reg) (s : State), ∃ t, exec (.addidx x) s = .next t ∧
    t.index.toNat = (s.index.toNat + (s.reg x).toNat) % 65536 ∧
    (t.reg 15).toNat = (if s.index.toNat + (s.reg x).toNat > 0x0FFF then 1 else 0) ∧
    t.pc = s.pc + 2 ∧ unchangedExcept [.index, .reg 15, .pc] s t

/-- R178: BCD stores hundreds, tens and ones at I, I+1, I+2, and no other byte; outside memory it raises with
the lowest offending address and nothing changes (D7; log 11). -/
def Obligations.BcdStoresDigitsOrRaises : Prop :=
  ∀ (x : Reg) (s : State), s.memWf →
    (s.base + 2 < 4096 → ∃ t, exec (.bcd x) s = .next t ∧
      (t.byteAt s.base).toNat = (s.reg x).toNat / 100 ∧
      (t.byteAt (s.base + 1)).toNat = (s.reg x).toNat / 10 % 10 ∧
      (t.byteAt (s.base + 2)).toNat = (s.reg x).toNat % 10 ∧
      (∀ a, a < s.base ∨ s.base + 2 < a → t.byteAt a = s.byteAt a) ∧
      t.pc = s.pc + 2 ∧ unchangedExcept [.memory, .pc] s t) ∧
    (4096 ≤ s.base + 2 → ∃ t, exec (.bcd x) s = .next t ∧
      t.fault = some (.memoryOutOfRange (max s.base 4096)) ∧ unchangedExcept [.fault] s t)

/-- R182: STREGS stores V[0] to V[X] at I to I+X, and no other byte; outside memory it raises with the lowest
offending address and nothing changes (D7; log 11). -/
def Obligations.StregsStoresBlockOrRaises : Prop :=
  ∀ (x : Reg) (s : State), s.memWf →
    (s.base + x.val < 4096 → ∃ t, exec (.stregs x) s = .next t ∧
      (∀ k : Reg, k ≤ x → t.byteAt (s.base + k.val) = s.reg k) ∧
      (∀ a, a < s.base ∨ s.base + x.val < a → t.byteAt a = s.byteAt a) ∧
      t.pc = s.pc + 2 ∧ unchangedExcept [.memory, .pc] s t) ∧
    (4096 ≤ s.base + x.val → ∃ t, exec (.stregs x) s = .next t ∧
      t.fault = some (.memoryOutOfRange (max s.base 4096)) ∧ unchangedExcept [.fault] s t)

/-- R184: LDREGS loads V[0] to V[X] from I to I+X; registers above V[X] are unchanged; outside memory it
raises with the lowest offending address and nothing changes (D7; log 11). -/
def Obligations.LdregsLoadsBlockOrRaises : Prop :=
  ∀ (x : Reg) (s : State),
    (s.base + x.val < 4096 → ∃ t, exec (.ldregs x) s = .next t ∧
      (∀ k : Reg, k ≤ x → t.reg k = s.byteAt (s.base + k.val)) ∧
      t.pc = s.pc + 2 ∧ unchangedExcept (.pc :: regsUpTo x) s t) ∧
    (4096 ≤ s.base + x.val → ∃ t, exec (.ldregs x) s = .next t ∧
      t.fault = some (.memoryOutOfRange (max s.base 4096)) ∧ unchangedExcept [.fault] s t)

/-- A register block survives memory: from a state whose registers have been stored by STREGS, whatever the
registers hold by then, LDREGS at the same `I` brings V[0] to V[X] back (R182, R184, R186). -/
def Obligations.LdregsUndoesStregs : Prop :=
  ∀ (x : Reg) (s t : State) (v : Vector Byte 16), s.memWf → s.base + x.val < 4096 →
    exec (.stregs x) s = .next t →
    ∃ u, exec (.ldregs x) { t with v := v } = .next u ∧ ∀ k : Reg, k ≤ x → u.reg k = s.reg k

/-- 20_memory.md R76: a byte stored by STREGS is seen by the very next instruction fetch (the spec's inference
from R67 and R69). -/
def Obligations.StoredBytesAreFetchedNext : Prop :=
  ∀ (x : Reg) (s u : State), s.memWf → s.running u → 1 ≤ x.val →
    decode (wordOfBytes (s.byteAt s.pc.toNat) (s.byteAt (s.pc.toNat + 1))) = some (.stregs x) →
    s.base = s.pc.toNat + 2 → s.base + x.val < 4096 →
    ∃ t, step s = .next t ∧ fetch t = .ok (wordOfBytes (s.reg 0) (s.reg 1))

/-- Equal memories are equal data: whatever the font is, two memories in canonical form that read
alike are the same list (the model's representation, log 12; 10_state.md R35). -/
def Obligations.CanonicalMemoriesAreEqualWhenReadsAre : Prop :=
  ∀ (f : Font) (m m' : Memory), m.wf f → m'.wf f → (∀ a, a < 4096 → m.read f a = m'.read f a) → m = m'

/-! ### Display (43_display.md) -/

/-- R190: CLS unsets all 2048 cells and sets REDRAW, also when the framebuffer was already clear. -/
def Obligations.ClsClearsEveryCell : Prop :=
  ∀ s : State, ∃ t, exec .cls s = .next t ∧ (∀ r c, t.fb.cell r c = false) ∧ t.redraw = true ∧
    t.pc = s.pc + 2 ∧ unchangedExcept [.framebuffer, .redraw, .pc] s t

/-- R194 with R195, R196: DRAW toggles exactly the cells that a set pixel of the sprite lands on; VF is 1 iff
some such cell was set before, else 0; REDRAW is set; nothing else changes. A sprite outside memory raises
with the lowest offending address and nothing changes (coordinates: D10; range: D7; log 11, 16). -/
def Obligations.DrawTogglesCoveredCells : Prop :=
  ∀ (x y : Reg) (n : Nat) (s : State), n < 16 →
    (n = 0 ∨ s.base + n - 1 < 4096 → ∃ t, exec (.draw x y n) s = .next t ∧
      (∀ r c, s.covers x y n r c → t.fb.cell r c = !s.fb.cell r c) ∧
      (∀ r c, ¬ s.covers x y n r c → t.fb.cell r c = s.fb.cell r c) ∧
      ((∃ r c, s.covers x y n r c ∧ s.fb.cell r c = true) → t.reg 15 = 1) ∧
      ((∀ r c, s.covers x y n r c → s.fb.cell r c = false) → t.reg 15 = 0) ∧
      t.redraw = true ∧ t.pc = s.pc + 2 ∧
      unchangedExcept [.framebuffer, .reg 15, .redraw, .pc] s t) ∧
    (0 < n ∧ 4096 ≤ s.base + n - 1 → ∃ t, exec (.draw x y n) s = .next t ∧
      t.fault = some (.memoryOutOfRange (max s.base 4096)) ∧ unchangedExcept [.fault] s t)

/-- Drawing the same sprite twice at the same place restores the framebuffer (R197), and the second DRAW sets
VF iff some covered cell was unset before the first. R197's derived sentence, iff the sprite has a drawn
pixel, does not follow from R194 where every covered cell was set: log 24. X and Y are not 15, so that the
place is the same. -/
def Obligations.DrawTwiceRestoresTheFramebuffer : Prop :=
  ∀ (x y : Reg) (n : Nat) (s : State), n < 16 → x ≠ 15 → y ≠ 15 → s.base + n ≤ 4096 →
    ∃ t u, exec (.draw x y n) s = .next t ∧ exec (.draw x y n) t = .next u ∧
      (∀ r c, u.fb.cell r c = s.fb.cell r c) ∧
      (u.reg 15 = 1 ↔ ∃ r c, s.covers x y n r c ∧ s.fb.cell r c = false)

/-- With WRAP = 0 a sprite whose origin is outside the framebuffer draws nothing, but still resets VF and sets
REDRAW, because the origin is not reduced first (R196; D10; log 16). -/
def Obligations.ClippedOriginDrawsNothing : Prop :=
  ∀ (x y : Reg) (n : Nat) (s : State), s.wrap = false → 64 ≤ (s.reg x).toNat ∨ 32 ≤ (s.reg y).toNat →
    n = 0 ∨ s.base + n - 1 < 4096 →
    ∃ t, exec (.draw x y n) s = .next t ∧ t.reg 15 = 0 ∧ t.redraw = true ∧
      unchangedExcept [.reg 15, .redraw, .pc] s t

/-- R199: DRAW with N = 0 reads no memory whatever `I` holds, draws nothing, resets VF, sets REDRAW and
advances `PC` (the spec's inference from R194). -/
def Obligations.DrawOfNoRows : Prop :=
  ∀ (x y : Reg) (s : State), ∃ t, exec (.draw x y 0) s = .next t ∧ t.reg 15 = 0 ∧ t.redraw = true ∧
    t.pc = s.pc + 2 ∧ unchangedExcept [.reg 15, .redraw, .pc] s t

/-! ### Keypad and timers (44_keypad_timers.md) -/

/-- R210, R212, R224: SKKEY and SKNKEY test KEYS[V[X]] and add 4 or 2 to `PC`; with V[X] above 15 they raise
KeyIndexOutOfRange(V[X]) and nothing changes (D8; log 11). -/
def Obligations.KeySkipsOrRaise : Prop :=
  ∀ (x : Reg) (s : State),
    (∀ k : Fin 16, (s.reg x).toNat = k.val →
      (∃ t, exec (.skkey x) s = .next t ∧
        t.pc = (if s.keys[k] = true then s.pc + 4 else s.pc + 2) ∧ unchangedExcept [.pc] s t) ∧
      (∃ t, exec (.sknkey x) s = .next t ∧
        t.pc = (if s.keys[k] = false then s.pc + 4 else s.pc + 2) ∧ unchangedExcept [.pc] s t)) ∧
    (15 < (s.reg x).toNat →
      (∃ t, exec (.skkey x) s = .next t ∧ t.fault = some (.keyIndexOutOfRange (s.reg x)) ∧
        unchangedExcept [.fault] s t) ∧
      (∃ t, exec (.sknkey x) s = .next t ∧ t.fault = some (.keyIndexOutOfRange (s.reg x)) ∧
        unchangedExcept [.fault] s t))

/-- R214, R216: WAITKEY with no key pressed changes nothing at all, `PC` included; otherwise it stores the
highest pressed key's index and advances (the highest: D15; log 16). -/
def Obligations.WaitkeyWaitsOrTakesTheHighestKey : Prop :=
  ∀ (x : Reg) (s : State),
    ((∀ k : Fin 16, s.keys[k] = false) → exec (.waitkey x) s = .next s) ∧
    (∀ k : Fin 16, s.keys[k] = true → (∀ j : Fin 16, k < j → s.keys[j] = false) →
      ∃ t, exec (.waitkey x) s = .next t ∧ (t.reg x).toNat = k.val ∧ t.pc = s.pc + 2 ∧
        unchangedExcept [.reg x, .pc] s t)

/-- R218, R220: RDDT reads DT; WRDT writes DT and nothing else, so not ACC. -/
def Obligations.DelayTimerTransfers : Prop :=
  ∀ (x : Reg) (s : State),
    (∃ t, exec (.rddt x) s = .next t ∧ t.reg x = s.dt ∧ t.pc = s.pc + 2 ∧
      unchangedExcept [.reg x, .pc] s t) ∧
    (∃ t, exec (.wrdt x) s = .next t ∧ t.dt = s.reg x ∧ t.pc = s.pc + 2 ∧
      unchangedExcept [.delay, .pc] s t)

/-- R222: WRST writes ST and sets SNDCHG, whatever the value (that no value is excepted is the spec's inference
from the source's wording). -/
def Obligations.SoundTimerWrite : Prop :=
  ∀ (x : Reg) (s : State), ∃ t, exec (.wrst x) s = .next t ∧ t.st = s.reg x ∧ t.sndchg = true ∧
    t.pc = s.pc + 2 ∧ unchangedExcept [.sound, .soundChanged, .pc] s t

/-! ### Events (60_exceptions.md, 70_reset_and_hazards.md) -/

/-- R247: one TimerAdvance performs (ACC + min(dt, DT_CAP)) div PERIOD rounds, each taking 1 from every timer
that is not 0, leaves ACC at the remainder, and writes nothing else; for every positive PERIOD and DT_CAP,
halted or not (the spec's inference from R246; the model's loop: log 23). A step whose next event is TimerAdvance
performs it with the PERIOD and DT_CAP of this machine, halted or not (R239, R246; log 4, 7, 8). -/
def Obligations.TimerAdvanceClosedForm : Prop :=
  (∀ (period cap dt : Nat) (s : State), 0 < period →
    (timerAdvanceWith period cap dt s).acc = (s.acc + min dt cap) % period ∧
    (timerAdvanceWith period cap dt s).dt.toNat = s.dt.toNat - (s.acc + min dt cap) / period ∧
    (timerAdvanceWith period cap dt s).st.toNat = s.st.toNat - (s.acc + min dt cap) / period ∧
    unchangedExcept [.delay, .sound, .accumulator] s (timerAdvanceWith period cap dt s)) ∧
  (∀ (dt : Nat) (s u : State), s.lifecycle ≠ .constructed → s.comesNext (.timerAdvance dt) u →
    step s = .next (timerAdvanceWith Config.period Config.dtCap dt u))

/-- Every behaviour of the timer engine is a sequence of Ticks, but for ACC (R247): a machine that is given
the rounds as Tick events, whatever follows them in the schedule, reaches the timers of TimerAdvance (the schedule
and Tick are the model's: log 7, 8, 23). -/
def Obligations.TimerAdvanceIsASequenceOfTicks : Prop :=
  ∀ (dt : Nat) (s : State) (rest : List Event), s.lifecycle = .ready →
    ∃ k t, Host.Core.run Sys2Proof.core k
        { s with schedule := List.replicate k .tick ++ rest } = .next t ∧
      { t with acc := (timerAdvance dt s).acc } = { timerAdvance dt s with schedule := rest }

/-- 10_state.md R40 and 70_reset_and_hazards.md R280: the Reset event, from any state whatever, halted or never
initialised, leaves every element at its reset value, the low 80 bytes at the font of this machine whatever it
is, and WRAP unchanged; the events to come stay, and every event is accepted from then on (ACC: D20; bytes 80 to
511: D23; FAULT: D17; the schedule and environment: log 7; what is accepted: log 8; log 2, 12, 15, 17). -/
def Obligations.ResetEventSetsEveryElement : Prop :=
  ∀ s u : State, s.comesNext .reset u → ∃ t, step s = .next t ∧
    (∀ x, t.reg x = 0) ∧ t.index = 0 ∧ t.pc = 0x200 ∧ t.sp = 0 ∧ (∀ k, t.stackEntry k = 0) ∧
    t.dt = 0 ∧ t.st = 0 ∧ (∀ r c, t.fb.cell r c = false) ∧ (∀ k : Fin 16, t.keys[k] = false) ∧
    (∀ a : Fin 80, t.byteAt a.val = s.font[a]) ∧ t.font = s.font ∧
    (∀ a, 80 ≤ a → a < 4096 → t.byteAt a = 0) ∧
    t.redraw = false ∧ t.sndchg = false ∧ t.wrap = s.wrap ∧ t.acc = 0 ∧ t.fault = none ∧
    t.lifecycle = .ready ∧ t.schedule = u.schedule ∧ t.environment = u.environment ∧
    t.draws = s.draws ∧ t.reply = s.reply

/-- What reset leaves, in the state the host starts from (10_state.md R40, 70_reset_and_hazards.md R282); WRAP,
the model's own fields are left out, and which font it is (ACC: D20; bytes 80 to 511: D23; FAULT: D17; log 2, 12, 17). -/
def Obligations.ResetStateValues : Prop :=
  (∀ x, State.reset.reg x = 0) ∧ State.reset.index = 0 ∧ State.reset.pc = 0x200 ∧ State.reset.sp = 0 ∧
  (∀ k, State.reset.stackEntry k = 0) ∧ State.reset.dt = 0 ∧ State.reset.st = 0 ∧
  (∀ r c, State.reset.fb.cell r c = false) ∧ (∀ k : Fin 16, State.reset.keys[k] = false) ∧
  (∀ a : Fin 80, State.reset.byteAt a.val = State.reset.font[a]) ∧
  (∀ a, 80 ≤ a → a < 4096 → State.reset.byteAt a = 0) ∧
  State.reset.redraw = false ∧ State.reset.sndchg = false ∧ State.reset.acc = 0 ∧
  State.reset.fault = none

/-- 70_reset_and_hazards.md R284: LoadImage of at most 3584 bytes writes exactly MEM[0x200 .. 0x200+L-1] and
returns ok; a longer image writes nothing and returns ImageTooLarge, and Steps are then refused (D24; how events
come, the reply and the accepted events are the model's: log 7, 8, 9, 22). -/
def Obligations.LoadImageWritesTheImageOrNothing : Prop :=
  ∀ (image : List Byte) (s u : State), s.memWf → s.lifecycle ≠ .constructed →
    s.comesNext (.loadImage image) u →
    (image.length ≤ 3584 → ∃ t, step s = .next t ∧ t.reply = .loaded ∧ t.lifecycle = .ready ∧
      (∀ k, k < image.length → t.byteAt (0x200 + k) = image.getD k 0) ∧
      (∀ a, a < 0x200 ∨ 0x200 + image.length ≤ a → t.byteAt a = s.byteAt a) ∧
      unchangedExcept [.memory, .reply, .lifecycle] u t) ∧
    (3584 < image.length → ∃ t, step s = .next t ∧ t.reply = .imageTooLarge ∧ t.lifecycle = .loadFailed ∧
      unchangedExcept [.reply, .lifecycle] u t)

/-- R250, R253: SetKeys replaces all sixteen flags at once and SetWrapPolicy sets WRAP; nothing else
changes but that the event is taken (log 7, 8). -/
def Obligations.SetKeysAndSetWrapPolicy : Prop :=
  (∀ (keys : Vector Bool 16) (s u : State), s.lifecycle ≠ .constructed → s.comesNext (.setKeys keys) u →
    ∃ t, step s = .next t ∧ (∀ k : Fin 16, t.keys[k] = keys[k]) ∧ unchangedExcept [.keys] u t) ∧
  (∀ (wrap : Bool) (s u : State), s.comesNext (.setWrapPolicy wrap) u →
    ∃ t, step s = .next t ∧ t.wrap = wrap ∧ t.wrapPolicyEnabled = wrap ∧ unchangedExcept [.wrap] u t)

/-- R251, R252: ConsumeRedraw and ConsumeSoundChanged return the flag and clear it, as one event (SNDCHG:
D25); nothing else changes but the model's reply and that the event is taken (log 7, 8, 9). -/
def Obligations.ConsumeReturnsAndClears : Prop :=
  (∀ s u : State, s.lifecycle ≠ .constructed → s.comesNext .consumeRedraw u →
    ∃ t, step s = .next t ∧ t.reply = .flag s.redraw ∧ t.redraw = false ∧
      unchangedExcept [.redraw, .reply] u t) ∧
  (∀ s u : State, s.lifecycle ≠ .constructed → s.comesNext .consumeSoundChanged u →
    ∃ t, step s = .next t ∧ t.reply = .flag s.sndchg ∧ t.sndchg = false ∧
      unchangedExcept [.soundChanged, .reply] u t)

/-- What the model refuses, and nothing else (10_state.md R40, 60_exceptions.md R258,
93_implementation_defined.md U14, U18; log 8): before the first Reset every event but Reset and SetWrapPolicy;
after a failed load a Step. -/
def Obligations.StepRefusesExactly : Prop :=
  ∀ s : State, (∃ r, step s = .refused r) ↔
    ∃ e u, s.comesNext e u ∧
      ((s.lifecycle = .constructed ∧ e ≠ .reset ∧ ∀ wrap, e ≠ .setWrapPolicy wrap) ∨
        (s.lifecycle = .loadFailed ∧ e = .step))

/-- 60_exceptions.md R263: from a parked state no Step changes any state (the spec's own definition, D29), but
that the Step is taken (log 7). -/
def Obligations.ParkedStateDoesNotChange : Prop :=
  ∀ s u : State, s.running u → s.parked → step s = .next u

/-! ### Invariants (10_state.md R42) -/

/-- Every step keeps the invariants of 10_state.md R42: the stack depth is at most STACK_CAPACITY, ACC is below
PERIOD (log 3, 4), and memory is in its canonical form with every listed address below 4096. -/
def Obligations.StepKeepsInvariants : Prop :=
  ∀ s t : State, s.Inv → step s = .next t → t.Inv

/-- The reset state has them. -/
def Obligations.ResetHasInvariants : Prop := State.reset.Inv

/-- FAULT, once not None, stays unchanged until Reset, whatever the next event is (R42, R239, R240: D17;
log 7, 10). -/
def Obligations.FaultStaysUntilReset : Prop :=
  ∀ (s t : State) (c : Condition), s.fault = some c → (∀ u, ¬ s.comesNext .reset u) →
    step s = .next t → t.fault = some c

/-- The font is a constant of the machine, and any 80 bytes (10_state.md R38, 00_scope.md R8): no step, whatever
instruction or event it runs, writes it. That it stands in State is the model's form (log 2). -/
def Obligations.NoStepWritesTheFont : Prop :=
  ∀ s t : State, step s = .next t → t.font = s.font

/-! ### Scheduling (60_exceptions.md R257) -/

/-- Whatever the host issues next, the machine takes it and nothing else (60_exceptions.md R255, R257). Every
state has exactly one next event; taking it changes the events to come and no other part; and the step is that
event. A host left free, with nothing scheduled, stays free: after any number of steps the next event is again one
on which the model puts no law, so any number of events of any kind may come, without end, in any order, and Steps
or TimerAdvances may stop coming (no fairness: D26, U20; the form, a field and a free value, is the model's: log 7). -/
def Obligations.HostEventsAreUnconstrained : Prop :=
  (∀ s : State, ∃ e u, s.comesNext e u ∧ (∀ d v, s.comesNext d v → d = e ∧ v = u) ∧
    unchangedExcept [.schedule, .environment] s u ∧ step s = runEvent e u) ∧
  (∀ (k n : Nat) (s t : State), s.schedule = [] → s.environment = .free n →
    Host.Core.run Sys2Proof.core k s = .next t →
    t.schedule = [] ∧ t.environment = .free (n + k) ∧
      ∀ e u, t.comesNext e u ↔ e = Config.hostEvent (n + k) ∧ u = t.withEnvironment (.free (n + k + 1)))
end

