-- ==== Sys2Proof/Laws/Decode.lean ====
section
/-! SUPPORT. The fields of a word and the encoder's formats as numbers (30_encoding.md R92, R93, R95), so
that a claim about encodings is a claim of arithmetic; and words from bytes (R91). -/

namespace Sys2Proof

/-! ### Fields as numbers -/

theorem fieldOp_eq (w : Word) : fieldOp w = w.toNat / 4096 := by
  have := w.isLt
  simp only [fieldOp, BitVec.extractLsb'_toNat, Nat.shiftRight_eq_div_pow]
  omega

theorem fieldX_val (w : Word) : (fieldX w).val = w.toNat / 256 % 16 := by
  show (w.extractLsb' 8 4).toNat = _
  simp only [BitVec.extractLsb'_toNat, Nat.shiftRight_eq_div_pow]

theorem fieldY_val (w : Word) : (fieldY w).val = w.toNat / 16 % 16 := by
  show (w.extractLsb' 4 4).toNat = _
  simp only [BitVec.extractLsb'_toNat, Nat.shiftRight_eq_div_pow]

theorem fieldN_eq (w : Word) : fieldN w = w.toNat % 16 := by
  simp [fieldN, BitVec.extractLsb'_toNat]

theorem fieldNN_toNat (w : Word) : (fieldNN w).toNat = w.toNat % 256 := by
  simp [fieldNN, BitVec.extractLsb'_toNat]

theorem fieldNNN_eq (w : Word) : fieldNNN w = w.toNat % 4096 := by
  simp [fieldNNN, BitVec.extractLsb'_toNat]

/-! ### Formats as numbers -/

/-- Concatenation as arithmetic. -/
theorem toNat_append_eq {m n : Nat} (a : BitVec m) (b : BitVec n) :
    (a ++ b).toNat = a.toNat * 2 ^ n + b.toNat := by
  rw [BitVec.toNat_append, ← Nat.shiftLeft_add_eq_or_of_lt b.isLt, Nat.shiftLeft_eq]

theorem regField_toNat (x : Reg) : (regField x).toNat = x.val := rfl

theorem encodeNNN_toNat (c : BitVec 4) (nnn : Nat) :
    (encodeNNN c nnn).toNat = c.toNat * 4096 + nnn % 4096 := by
  unfold encodeNNN
  rw [toNat_append_eq, BitVec.toNat_ofNat]; rfl

theorem encodeXNN_toNat (c : BitVec 4) (x : Reg) (nn : Byte) :
    (encodeXNN c x nn).toNat = c.toNat * 4096 + x.val * 256 + nn.toNat := by
  unfold encodeXNN
  rw [toNat_append_eq, toNat_append_eq, regField_toNat]
  omega

theorem encodeXY_toNat (c : BitVec 4) (x y : Reg) (s : BitVec 4) :
    (encodeXY c x y s).toNat = c.toNat * 4096 + x.val * 256 + y.val * 16 + s.toNat := by
  unfold encodeXY
  rw [toNat_append_eq, toNat_append_eq, toNat_append_eq, regField_toNat, regField_toNat]
  omega

/-! ### The masks of the opcode map as numbers (30_encoding.md R95) -/

/-- Mask 0xF000 keeps the op class. -/
theorem and_F000_toNat (w : Word) : (w &&& 0xF000#16).toNat = w.toNat / 4096 * 4096 := by
  have h : w &&& 0xF000#16 = (w >>> 12) <<< 12 := by
    ext i hi
    interval_cases i <;> simp
  have := w.isLt
  rw [h]
  simp only [BitVec.toNat_shiftLeft, BitVec.toNat_ushiftRight, Nat.shiftLeft_eq,
    Nat.shiftRight_eq_div_pow]
  omega

/-- A mask that keeps the op class and the low `k` bits. -/
theorem toNat_class_or_low (w : Word) (k : Nat) (hk : k ≤ 12) :
    ((w >>> 12) <<< 12 ||| BitVec.ofNat 16 (w.toNat % 2 ^ k)).toNat =
      w.toNat / 4096 * 4096 + w.toNat % 2 ^ k := by
  have := w.isLt
  have hp : 2 ^ k ≤ 2 ^ 12 := Nat.pow_le_pow_right (by decide) hk
  have hm : w.toNat % 2 ^ k < 2 ^ 12 := lt_of_lt_of_le (Nat.mod_lt _ (by positivity)) hp
  rw [BitVec.toNat_or, BitVec.toNat_shiftLeft, BitVec.toNat_ushiftRight, BitVec.toNat_ofNat,
    Nat.shiftRight_eq_div_pow, Nat.shiftLeft_eq, Nat.mod_eq_of_lt (by omega : w.toNat % 2 ^ k < 2 ^ 16),
    Nat.mod_eq_of_lt (by omega : w.toNat / 2 ^ 12 * 2 ^ 12 < 2 ^ 16),
    ← Nat.shiftLeft_eq, ← Nat.shiftLeft_add_eq_or_of_lt hm, Nat.shiftLeft_eq]; rfl

/-- Mask 0xF00F keeps the op class and the low nibble. -/
theorem and_F00F_toNat (w : Word) :
    (w &&& 0xF00F#16).toNat = w.toNat / 4096 * 4096 + w.toNat % 16 := by
  have h : w &&& 0xF00F#16 = (w >>> 12) <<< 12 ||| BitVec.ofNat 16 (w.toNat % 2 ^ 4) := by
    have low : BitVec.ofNat 16 (w.toNat % 2 ^ 4) = w &&& 0x000F#16 := by
      apply BitVec.eq_of_toNat_eq
      have := Nat.and_two_pow_sub_one_eq_mod w.toNat 4
      simp at this ⊢
      omega
    rw [low]
    ext i hi
    interval_cases i <;> simp
  rw [h, toNat_class_or_low w 4 (by decide)]; rfl

/-- Mask 0xF0FF keeps the op class and the low byte. -/
theorem and_F0FF_toNat (w : Word) :
    (w &&& 0xF0FF#16).toNat = w.toNat / 4096 * 4096 + w.toNat % 256 := by
  have h : w &&& 0xF0FF#16 = (w >>> 12) <<< 12 ||| BitVec.ofNat 16 (w.toNat % 2 ^ 8) := by
    have low : BitVec.ofNat 16 (w.toNat % 2 ^ 8) = w &&& 0x00FF#16 := by
      apply BitVec.eq_of_toNat_eq
      have := Nat.and_two_pow_sub_one_eq_mod w.toNat 8
      simp at this ⊢
      omega
    rw [low]
    ext i hi
    interval_cases i <;> simp
  rw [h, toNat_class_or_low w 8 (by decide)]; rfl

/-! ### Words and bytes -/

theorem wordOfBytes_toNat (first second : Byte) :
    (wordOfBytes first second).toNat = first.toNat * 256 + second.toNat := by
  unfold wordOfBytes
  rw [toNat_append_eq]; rfl

/-- The two bytes of a word form the word again (30_encoding.md R91). -/
theorem wordOfBytes_extract (w : Word) : wordOfBytes (w.extractLsb' 8 8) (w.extractLsb' 0 8) = w := by
  apply BitVec.eq_of_toNat_eq
  have := w.isLt
  rw [wordOfBytes_toNat]
  simp only [BitVec.extractLsb'_toNat, Nat.shiftRight_eq_div_pow]
  omega

/-- The decoder over bytes is the decode procedure of the first two (30_encoding.md R90, R91). -/
theorem decodeBytes_bytesOfWord (w : Word) :
    decodeBytes (bytesOfWord w) =
      match decode w with
      | some i => .ok (i, [])
      | none => .error (.unknownInstruction w) := by
  cases h : decode w <;> simp only [bytesOfWord, decodeBytes, wordOfBytes_extract, h]

end Sys2Proof
end

