-- ==== Sys2Proof/Laws/Memory.lean ====
section
/-! SUPPORT. Memory: a read after a write, and the canonical form kept by every memory operation
(20_memory.md R66, R67). -/

namespace Sys2Proof.Machine

variable (f : Font)

/-! ### Reading after an update -/

@[simp] theorem Memory.read_nil (a : Nat) : Memory.read f [] a = Memory.unlisted f a := rfl

theorem Memory.read_cons (c : Nat) (b : Byte) (m : Memory) (a : Nat) :
    Memory.read f ((c, b) :: m) a = if a = c then b else m.read f a := rfl

/-- An address below every listed one is unlisted. -/
theorem Memory.read_of_lt (m : Memory) (a : Nat) (h : ∀ e ∈ m, a < e.1) :
    m.read f a = Memory.unlisted f a := by
  induction m with
  | nil => rfl
  | cons e m ih =>
    obtain ⟨c, b⟩ := e
    have hc : a < c := h (c, b) (by simp)
    rw [Memory.read_cons, if_neg (by omega)]
    exact ih fun e he => h e (by simp [he])

theorem Memory.read_insert (m : Memory) (a c : Nat) (b : Byte) :
    (m.insert a b).read f c = if c = a then b else m.read f c := by
  induction m with
  | nil => simp [Memory.insert, Memory.read_cons]
  | cons e m ih =>
    obtain ⟨d, g⟩ := e
    simp only [Memory.insert]
    split
    · simp [Memory.read_cons]
    · split
      · subst d
        simp only [Memory.read_cons]
        split <;> simp_all
      · simp only [Memory.read_cons, ih]
        split <;> split <;> simp_all

theorem Memory.read_remove (m : Memory) (a c : Nat) (h : m.Pairwise fun p q => p.1 < q.1) :
    (m.remove a).read f c = if c = a then Memory.unlisted f a else m.read f c := by
  induction m with
  | nil => simp only [Memory.remove, Memory.read_nil]; split <;> simp_all
  | cons e m ih =>
    obtain ⟨d, g⟩ := e
    obtain ⟨hd, hm⟩ := List.pairwise_cons.mp h
    simp only [Memory.remove]
    split
    · subst a
      split
      · subst c; exact Memory.read_of_lt f m _ hd
      · rw [Memory.read_cons, if_neg ‹_›]
    · simp only [Memory.read_cons, ih hm]
      split <;> split <;> simp_all

/-- All that a write does to reads (20_memory.md R67). -/
theorem Memory.read_write (m : Memory) (a c : Nat) (b : Byte) (h : m.wf f) :
    (m.write f a b).read f c = if c = a then b else m.read f c := by
  unfold Memory.write
  split
  · rw [Memory.read_remove _ _ _ _ h.1]; simp_all
  · exact Memory.read_insert f m a c b

/-! ### The canonical form -/

theorem Memory.mem_remove (m : Memory) (a : Nat) (e : Host.Cell) (h : e ∈ m.remove a) : e ∈ m := by
  induction m with
  | nil => simp [Memory.remove] at h
  | cons d m ih =>
    simp only [Memory.remove] at h
    split at h
    · simp [h]
    · rcases List.mem_cons.mp h with h | h
      · simp [h]
      · simp [ih h]

theorem Memory.mem_insert (m : Memory) (a : Nat) (b : Byte) (e : Host.Cell) (h : e ∈ m.insert a b) :
    e = (a, b) ∨ e ∈ m := by
  induction m with
  | nil => simpa [Memory.insert] using h
  | cons d m ih =>
    simp only [Memory.insert] at h
    split at h
    · simpa using h
    · split at h
      · rcases List.mem_cons.mp h with h | h
        · simp [h]
        · simp [h]
      · rcases List.mem_cons.mp h with h | h
        · simp [h]
        · rcases ih h with h | h <;> simp [h]

theorem Memory.remove_sorted (m : Memory) (a : Nat) (h : m.Pairwise fun p q => p.1 < q.1) :
    (m.remove a).Pairwise fun p q => p.1 < q.1 := by
  induction m with
  | nil => exact List.Pairwise.nil
  | cons d m ih =>
    obtain ⟨hd, hm⟩ := List.pairwise_cons.mp h
    simp only [Memory.remove]
    split
    · exact hm
    · exact List.pairwise_cons.mpr ⟨fun e he => hd e (Memory.mem_remove m a e he), ih hm⟩

theorem Memory.insert_sorted (m : Memory) (a : Nat) (b : Byte) (h : m.Pairwise fun p q => p.1 < q.1) :
    (m.insert a b).Pairwise fun p q => p.1 < q.1 := by
  induction m with
  | nil => simp [Memory.insert]
  | cons d m ih =>
    obtain ⟨hd, hm⟩ := List.pairwise_cons.mp h
    simp only [Memory.insert]
    split
    · refine List.pairwise_cons.mpr ⟨fun e he => ?_, h⟩
      rcases List.mem_cons.mp he with rfl | he
      · assumption
      · have := hd e he; simp only at *; omega
    · split
      · subst a; exact List.pairwise_cons.mpr ⟨hd, hm⟩
      · refine List.pairwise_cons.mpr ⟨fun e he => ?_, ih hm⟩
        rcases Memory.mem_insert m a b e he with rfl | he
        · simp only; omega
        · exact hd e he

/-- A write in range keeps the canonical form. -/
theorem Memory.wf_write (m : Memory) (a : Nat) (b : Byte) (h : m.wf f) (ha : a < memSize) :
    (m.write f a b).wf f := by
  unfold Memory.write
  split
  · exact ⟨Memory.remove_sorted m a h.1, fun e he => h.2 e (Memory.mem_remove m a e he)⟩
  · refine ⟨Memory.insert_sorted m a b h.1, fun e he => ?_⟩
    rcases Memory.mem_insert m a b e he with rfl | he
    · exact ⟨ha, by assumption⟩
    · exact h.2 e he

theorem Memory.wf_nil : Memory.wf f [] := ⟨List.Pairwise.nil, fun _ he => nomatch he⟩

/-! ### Sequences of bytes -/

/-- Writing a sequence in range keeps the canonical form. -/
theorem Memory.wf_writeBytes (m : Memory) (a : Nat) (bs : List Byte) (h : m.wf f)
    (ha : a + bs.length ≤ memSize) : (m.writeBytes f a bs).wf f := by
  induction bs generalizing m a with
  | nil => exact h
  | cons b bs ih =>
    simp only [List.length_cons] at ha
    exact ih _ _ (Memory.wf_write f m a b h (by omega)) (by omega)

/-- All that writing a sequence in range does to reads: the addresses from `a` on read the bytes, every
other address reads as before. -/
theorem Memory.read_writeBytes (m : Memory) (a c : Nat) (bs : List Byte) (h : m.wf f)
    (ha : a + bs.length ≤ memSize) :
    (m.writeBytes f a bs).read f c =
      if a ≤ c ∧ c < a + bs.length then bs.getD (c - a) 0 else m.read f c := by
  induction bs generalizing m a with
  | nil =>
    rw [if_neg (by simp only [List.length_nil]; omega)]
    rfl
  | cons b bs ih =>
    simp only [List.length_cons] at ha ⊢
    simp only [Memory.writeBytes]
    rw [ih _ _ (Memory.wf_write f m a b h (by omega)) (by omega), Memory.read_write _ _ _ _ _ h]
    by_cases hc : c = a
    · subst c
      rw [if_neg (by omega), if_pos rfl, if_pos (by omega)]
      simp
    · rw [if_neg hc]
      by_cases hr : a ≤ c ∧ c < a + (bs.length + 1)
      · rw [if_pos (by omega), if_pos hr]
        obtain ⟨k, hk⟩ : ∃ k, c - a = k + 1 := ⟨c - a - 1, by omega⟩
        rw [hk, List.getD_cons_succ, show c - (a + 1) = k by omega]
      · rw [if_neg (by omega), if_neg hr]

@[simp] theorem Memory.readBytes_length (m : Memory) (a n : Nat) : (m.readBytes f a n).length = n := by
  induction n generalizing a with
  | zero => rfl
  | succ n ih => simp [Memory.readBytes, ih]

/-- Byte `k` of a sequence read from `a` is the byte at `a + k`. -/
theorem Memory.readBytes_getElem (m : Memory) (a n k : Nat) (h : k < n) :
    (m.readBytes f a n)[k]'(by simpa using h) = m.read f (a + k) := by
  induction n generalizing a k with
  | zero => omega
  | succ n ih =>
    cases k with
    | zero => rfl
    | succ k =>
      simp only [Memory.readBytes, List.getElem_cons_succ]
      rw [ih (a + 1) k (by omega), show a + 1 + k = a + (k + 1) by omega]

end Sys2Proof.Machine
end

