-- ==== Sys2Proof/Laws/State.lean ====
section
/-! SUPPORT. Beside State: for each update of Machine/Ops.lean and the timer round, what every field is
after it. -/

namespace Sys2Proof.Machine

@[simp] theorem State.setReg_v (s : State) (x : Reg) (b : Byte) : (s.setReg x b).v = s.v.set x b := rfl
@[simp] theorem State.setReg_index (s : State) (x : Reg) (b : Byte) : (s.setReg x b).index = s.index := rfl
@[simp] theorem State.setReg_pc (s : State) (x : Reg) (b : Byte) : (s.setReg x b).pc = s.pc := rfl
@[simp] theorem State.setReg_stack (s : State) (x : Reg) (b : Byte) : (s.setReg x b).stack = s.stack := rfl
@[simp] theorem State.setReg_sp (s : State) (x : Reg) (b : Byte) : (s.setReg x b).sp = s.sp := rfl
@[simp] theorem State.setReg_dt (s : State) (x : Reg) (b : Byte) : (s.setReg x b).dt = s.dt := rfl
@[simp] theorem State.setReg_st (s : State) (x : Reg) (b : Byte) : (s.setReg x b).st = s.st := rfl
@[simp] theorem State.setReg_fb (s : State) (x : Reg) (b : Byte) : (s.setReg x b).fb = s.fb := rfl
@[simp] theorem State.setReg_keys (s : State) (x : Reg) (b : Byte) : (s.setReg x b).keys = s.keys := rfl
@[simp] theorem State.setReg_wrap (s : State) (x : Reg) (b : Byte) : (s.setReg x b).wrap = s.wrap := rfl
@[simp] theorem State.setReg_redraw (s : State) (x : Reg) (b : Byte) : (s.setReg x b).redraw = s.redraw := rfl
@[simp] theorem State.setReg_sndchg (s : State) (x : Reg) (b : Byte) : (s.setReg x b).sndchg = s.sndchg := rfl
@[simp] theorem State.setReg_mem (s : State) (x : Reg) (b : Byte) : (s.setReg x b).mem = s.mem := rfl
@[simp] theorem State.setReg_font (s : State) (x : Reg) (b : Byte) : (s.setReg x b).font = s.font := rfl
@[simp] theorem State.setReg_acc (s : State) (x : Reg) (b : Byte) : (s.setReg x b).acc = s.acc := rfl
@[simp] theorem State.setReg_fault (s : State) (x : Reg) (b : Byte) : (s.setReg x b).fault = s.fault := rfl
@[simp] theorem State.setReg_draws (s : State) (x : Reg) (b : Byte) : (s.setReg x b).draws = s.draws := rfl
@[simp] theorem State.setReg_lifecycle (s : State) (x : Reg) (b : Byte) : (s.setReg x b).lifecycle = s.lifecycle := rfl
@[simp] theorem State.setReg_schedule (s : State) (x : Reg) (b : Byte) : (s.setReg x b).schedule = s.schedule := rfl
@[simp] theorem State.setReg_environment (s : State) (x : Reg) (b : Byte) : (s.setReg x b).environment = s.environment := rfl
@[simp] theorem State.setReg_reply (s : State) (x : Reg) (b : Byte) : (s.setReg x b).reply = s.reply := rfl

@[simp] theorem State.setFlag_v (s : State) (f : Bool) : (s.setFlag f).v = s.v.set regVF (if f then 1 else 0) := rfl
@[simp] theorem State.setFlag_index (s : State) (f : Bool) : (s.setFlag f).index = s.index := rfl
@[simp] theorem State.setFlag_pc (s : State) (f : Bool) : (s.setFlag f).pc = s.pc := rfl
@[simp] theorem State.setFlag_stack (s : State) (f : Bool) : (s.setFlag f).stack = s.stack := rfl
@[simp] theorem State.setFlag_sp (s : State) (f : Bool) : (s.setFlag f).sp = s.sp := rfl
@[simp] theorem State.setFlag_dt (s : State) (f : Bool) : (s.setFlag f).dt = s.dt := rfl
@[simp] theorem State.setFlag_st (s : State) (f : Bool) : (s.setFlag f).st = s.st := rfl
@[simp] theorem State.setFlag_fb (s : State) (f : Bool) : (s.setFlag f).fb = s.fb := rfl
@[simp] theorem State.setFlag_keys (s : State) (f : Bool) : (s.setFlag f).keys = s.keys := rfl
@[simp] theorem State.setFlag_wrap (s : State) (f : Bool) : (s.setFlag f).wrap = s.wrap := rfl
@[simp] theorem State.setFlag_redraw (s : State) (f : Bool) : (s.setFlag f).redraw = s.redraw := rfl
@[simp] theorem State.setFlag_sndchg (s : State) (f : Bool) : (s.setFlag f).sndchg = s.sndchg := rfl
@[simp] theorem State.setFlag_mem (s : State) (f : Bool) : (s.setFlag f).mem = s.mem := rfl
@[simp] theorem State.setFlag_font (s : State) (f : Bool) : (s.setFlag f).font = s.font := rfl
@[simp] theorem State.setFlag_acc (s : State) (f : Bool) : (s.setFlag f).acc = s.acc := rfl
@[simp] theorem State.setFlag_fault (s : State) (f : Bool) : (s.setFlag f).fault = s.fault := rfl
@[simp] theorem State.setFlag_draws (s : State) (f : Bool) : (s.setFlag f).draws = s.draws := rfl
@[simp] theorem State.setFlag_lifecycle (s : State) (f : Bool) : (s.setFlag f).lifecycle = s.lifecycle := rfl
@[simp] theorem State.setFlag_schedule (s : State) (f : Bool) : (s.setFlag f).schedule = s.schedule := rfl
@[simp] theorem State.setFlag_environment (s : State) (f : Bool) : (s.setFlag f).environment = s.environment := rfl
@[simp] theorem State.setFlag_reply (s : State) (f : Bool) : (s.setFlag f).reply = s.reply := rfl

@[simp] theorem State.setRegs_v (s : State) (v : Vector Byte 16) : (s.setRegs v).v = v := rfl
@[simp] theorem State.setRegs_index (s : State) (v : Vector Byte 16) : (s.setRegs v).index = s.index := rfl
@[simp] theorem State.setRegs_pc (s : State) (v : Vector Byte 16) : (s.setRegs v).pc = s.pc := rfl
@[simp] theorem State.setRegs_stack (s : State) (v : Vector Byte 16) : (s.setRegs v).stack = s.stack := rfl
@[simp] theorem State.setRegs_sp (s : State) (v : Vector Byte 16) : (s.setRegs v).sp = s.sp := rfl
@[simp] theorem State.setRegs_dt (s : State) (v : Vector Byte 16) : (s.setRegs v).dt = s.dt := rfl
@[simp] theorem State.setRegs_st (s : State) (v : Vector Byte 16) : (s.setRegs v).st = s.st := rfl
@[simp] theorem State.setRegs_fb (s : State) (v : Vector Byte 16) : (s.setRegs v).fb = s.fb := rfl
@[simp] theorem State.setRegs_keys (s : State) (v : Vector Byte 16) : (s.setRegs v).keys = s.keys := rfl
@[simp] theorem State.setRegs_wrap (s : State) (v : Vector Byte 16) : (s.setRegs v).wrap = s.wrap := rfl
@[simp] theorem State.setRegs_redraw (s : State) (v : Vector Byte 16) : (s.setRegs v).redraw = s.redraw := rfl
@[simp] theorem State.setRegs_sndchg (s : State) (v : Vector Byte 16) : (s.setRegs v).sndchg = s.sndchg := rfl
@[simp] theorem State.setRegs_mem (s : State) (v : Vector Byte 16) : (s.setRegs v).mem = s.mem := rfl
@[simp] theorem State.setRegs_font (s : State) (v : Vector Byte 16) : (s.setRegs v).font = s.font := rfl
@[simp] theorem State.setRegs_acc (s : State) (v : Vector Byte 16) : (s.setRegs v).acc = s.acc := rfl
@[simp] theorem State.setRegs_fault (s : State) (v : Vector Byte 16) : (s.setRegs v).fault = s.fault := rfl
@[simp] theorem State.setRegs_draws (s : State) (v : Vector Byte 16) : (s.setRegs v).draws = s.draws := rfl
@[simp] theorem State.setRegs_lifecycle (s : State) (v : Vector Byte 16) : (s.setRegs v).lifecycle = s.lifecycle := rfl
@[simp] theorem State.setRegs_schedule (s : State) (v : Vector Byte 16) : (s.setRegs v).schedule = s.schedule := rfl
@[simp] theorem State.setRegs_environment (s : State) (v : Vector Byte 16) : (s.setRegs v).environment = s.environment := rfl
@[simp] theorem State.setRegs_reply (s : State) (v : Vector Byte 16) : (s.setRegs v).reply = s.reply := rfl

@[simp] theorem State.setIndex_v (s : State) (w : Word) : (s.setIndex w).v = s.v := rfl
@[simp] theorem State.setIndex_index (s : State) (w : Word) : (s.setIndex w).index = w := rfl
@[simp] theorem State.setIndex_pc (s : State) (w : Word) : (s.setIndex w).pc = s.pc := rfl
@[simp] theorem State.setIndex_stack (s : State) (w : Word) : (s.setIndex w).stack = s.stack := rfl
@[simp] theorem State.setIndex_sp (s : State) (w : Word) : (s.setIndex w).sp = s.sp := rfl
@[simp] theorem State.setIndex_dt (s : State) (w : Word) : (s.setIndex w).dt = s.dt := rfl
@[simp] theorem State.setIndex_st (s : State) (w : Word) : (s.setIndex w).st = s.st := rfl
@[simp] theorem State.setIndex_fb (s : State) (w : Word) : (s.setIndex w).fb = s.fb := rfl
@[simp] theorem State.setIndex_keys (s : State) (w : Word) : (s.setIndex w).keys = s.keys := rfl
@[simp] theorem State.setIndex_wrap (s : State) (w : Word) : (s.setIndex w).wrap = s.wrap := rfl
@[simp] theorem State.setIndex_redraw (s : State) (w : Word) : (s.setIndex w).redraw = s.redraw := rfl
@[simp] theorem State.setIndex_sndchg (s : State) (w : Word) : (s.setIndex w).sndchg = s.sndchg := rfl
@[simp] theorem State.setIndex_mem (s : State) (w : Word) : (s.setIndex w).mem = s.mem := rfl
@[simp] theorem State.setIndex_font (s : State) (w : Word) : (s.setIndex w).font = s.font := rfl
@[simp] theorem State.setIndex_acc (s : State) (w : Word) : (s.setIndex w).acc = s.acc := rfl
@[simp] theorem State.setIndex_fault (s : State) (w : Word) : (s.setIndex w).fault = s.fault := rfl
@[simp] theorem State.setIndex_draws (s : State) (w : Word) : (s.setIndex w).draws = s.draws := rfl
@[simp] theorem State.setIndex_lifecycle (s : State) (w : Word) : (s.setIndex w).lifecycle = s.lifecycle := rfl
@[simp] theorem State.setIndex_schedule (s : State) (w : Word) : (s.setIndex w).schedule = s.schedule := rfl
@[simp] theorem State.setIndex_environment (s : State) (w : Word) : (s.setIndex w).environment = s.environment := rfl
@[simp] theorem State.setIndex_reply (s : State) (w : Word) : (s.setIndex w).reply = s.reply := rfl

@[simp] theorem State.setPc_v (s : State) (w : Word) : (s.setPc w).v = s.v := rfl
@[simp] theorem State.setPc_index (s : State) (w : Word) : (s.setPc w).index = s.index := rfl
@[simp] theorem State.setPc_pc (s : State) (w : Word) : (s.setPc w).pc = w := rfl
@[simp] theorem State.setPc_stack (s : State) (w : Word) : (s.setPc w).stack = s.stack := rfl
@[simp] theorem State.setPc_sp (s : State) (w : Word) : (s.setPc w).sp = s.sp := rfl
@[simp] theorem State.setPc_dt (s : State) (w : Word) : (s.setPc w).dt = s.dt := rfl
@[simp] theorem State.setPc_st (s : State) (w : Word) : (s.setPc w).st = s.st := rfl
@[simp] theorem State.setPc_fb (s : State) (w : Word) : (s.setPc w).fb = s.fb := rfl
@[simp] theorem State.setPc_keys (s : State) (w : Word) : (s.setPc w).keys = s.keys := rfl
@[simp] theorem State.setPc_wrap (s : State) (w : Word) : (s.setPc w).wrap = s.wrap := rfl
@[simp] theorem State.setPc_redraw (s : State) (w : Word) : (s.setPc w).redraw = s.redraw := rfl
@[simp] theorem State.setPc_sndchg (s : State) (w : Word) : (s.setPc w).sndchg = s.sndchg := rfl
@[simp] theorem State.setPc_mem (s : State) (w : Word) : (s.setPc w).mem = s.mem := rfl
@[simp] theorem State.setPc_font (s : State) (w : Word) : (s.setPc w).font = s.font := rfl
@[simp] theorem State.setPc_acc (s : State) (w : Word) : (s.setPc w).acc = s.acc := rfl
@[simp] theorem State.setPc_fault (s : State) (w : Word) : (s.setPc w).fault = s.fault := rfl
@[simp] theorem State.setPc_draws (s : State) (w : Word) : (s.setPc w).draws = s.draws := rfl
@[simp] theorem State.setPc_lifecycle (s : State) (w : Word) : (s.setPc w).lifecycle = s.lifecycle := rfl
@[simp] theorem State.setPc_schedule (s : State) (w : Word) : (s.setPc w).schedule = s.schedule := rfl
@[simp] theorem State.setPc_environment (s : State) (w : Word) : (s.setPc w).environment = s.environment := rfl
@[simp] theorem State.setPc_reply (s : State) (w : Word) : (s.setPc w).reply = s.reply := rfl

@[simp] theorem State.nextInstr_v (s : State) : s.nextInstr.v = s.v := rfl
@[simp] theorem State.nextInstr_index (s : State) : s.nextInstr.index = s.index := rfl
@[simp] theorem State.nextInstr_pc (s : State) : s.nextInstr.pc = s.pc + 2 := rfl
@[simp] theorem State.nextInstr_stack (s : State) : s.nextInstr.stack = s.stack := rfl
@[simp] theorem State.nextInstr_sp (s : State) : s.nextInstr.sp = s.sp := rfl
@[simp] theorem State.nextInstr_dt (s : State) : s.nextInstr.dt = s.dt := rfl
@[simp] theorem State.nextInstr_st (s : State) : s.nextInstr.st = s.st := rfl
@[simp] theorem State.nextInstr_fb (s : State) : s.nextInstr.fb = s.fb := rfl
@[simp] theorem State.nextInstr_keys (s : State) : s.nextInstr.keys = s.keys := rfl
@[simp] theorem State.nextInstr_wrap (s : State) : s.nextInstr.wrap = s.wrap := rfl
@[simp] theorem State.nextInstr_redraw (s : State) : s.nextInstr.redraw = s.redraw := rfl
@[simp] theorem State.nextInstr_sndchg (s : State) : s.nextInstr.sndchg = s.sndchg := rfl
@[simp] theorem State.nextInstr_mem (s : State) : s.nextInstr.mem = s.mem := rfl
@[simp] theorem State.nextInstr_font (s : State) : s.nextInstr.font = s.font := rfl
@[simp] theorem State.nextInstr_acc (s : State) : s.nextInstr.acc = s.acc := rfl
@[simp] theorem State.nextInstr_fault (s : State) : s.nextInstr.fault = s.fault := rfl
@[simp] theorem State.nextInstr_draws (s : State) : s.nextInstr.draws = s.draws := rfl
@[simp] theorem State.nextInstr_lifecycle (s : State) : s.nextInstr.lifecycle = s.lifecycle := rfl
@[simp] theorem State.nextInstr_schedule (s : State) : s.nextInstr.schedule = s.schedule := rfl
@[simp] theorem State.nextInstr_environment (s : State) : s.nextInstr.environment = s.environment := rfl
@[simp] theorem State.nextInstr_reply (s : State) : s.nextInstr.reply = s.reply := rfl

@[simp] theorem State.skipInstr_v (s : State) : s.skipInstr.v = s.v := rfl
@[simp] theorem State.skipInstr_index (s : State) : s.skipInstr.index = s.index := rfl
@[simp] theorem State.skipInstr_pc (s : State) : s.skipInstr.pc = s.pc + 4 := rfl
@[simp] theorem State.skipInstr_stack (s : State) : s.skipInstr.stack = s.stack := rfl
@[simp] theorem State.skipInstr_sp (s : State) : s.skipInstr.sp = s.sp := rfl
@[simp] theorem State.skipInstr_dt (s : State) : s.skipInstr.dt = s.dt := rfl
@[simp] theorem State.skipInstr_st (s : State) : s.skipInstr.st = s.st := rfl
@[simp] theorem State.skipInstr_fb (s : State) : s.skipInstr.fb = s.fb := rfl
@[simp] theorem State.skipInstr_keys (s : State) : s.skipInstr.keys = s.keys := rfl
@[simp] theorem State.skipInstr_wrap (s : State) : s.skipInstr.wrap = s.wrap := rfl
@[simp] theorem State.skipInstr_redraw (s : State) : s.skipInstr.redraw = s.redraw := rfl
@[simp] theorem State.skipInstr_sndchg (s : State) : s.skipInstr.sndchg = s.sndchg := rfl
@[simp] theorem State.skipInstr_mem (s : State) : s.skipInstr.mem = s.mem := rfl
@[simp] theorem State.skipInstr_font (s : State) : s.skipInstr.font = s.font := rfl
@[simp] theorem State.skipInstr_acc (s : State) : s.skipInstr.acc = s.acc := rfl
@[simp] theorem State.skipInstr_fault (s : State) : s.skipInstr.fault = s.fault := rfl
@[simp] theorem State.skipInstr_draws (s : State) : s.skipInstr.draws = s.draws := rfl
@[simp] theorem State.skipInstr_lifecycle (s : State) : s.skipInstr.lifecycle = s.lifecycle := rfl
@[simp] theorem State.skipInstr_schedule (s : State) : s.skipInstr.schedule = s.schedule := rfl
@[simp] theorem State.skipInstr_environment (s : State) : s.skipInstr.environment = s.environment := rfl
@[simp] theorem State.skipInstr_reply (s : State) : s.skipInstr.reply = s.reply := rfl

@[simp] theorem State.push_v (s : State) (w : Word) : (s.push w).v = s.v := rfl
@[simp] theorem State.push_index (s : State) (w : Word) : (s.push w).index = s.index := rfl
@[simp] theorem State.push_pc (s : State) (w : Word) : (s.push w).pc = s.pc := rfl
@[simp] theorem State.push_stack (s : State) (w : Word) : (s.push w).stack = s.stack.setIfInBounds s.sp w := rfl
@[simp] theorem State.push_sp (s : State) (w : Word) : (s.push w).sp = s.sp + 1 := rfl
@[simp] theorem State.push_dt (s : State) (w : Word) : (s.push w).dt = s.dt := rfl
@[simp] theorem State.push_st (s : State) (w : Word) : (s.push w).st = s.st := rfl
@[simp] theorem State.push_fb (s : State) (w : Word) : (s.push w).fb = s.fb := rfl
@[simp] theorem State.push_keys (s : State) (w : Word) : (s.push w).keys = s.keys := rfl
@[simp] theorem State.push_wrap (s : State) (w : Word) : (s.push w).wrap = s.wrap := rfl
@[simp] theorem State.push_redraw (s : State) (w : Word) : (s.push w).redraw = s.redraw := rfl
@[simp] theorem State.push_sndchg (s : State) (w : Word) : (s.push w).sndchg = s.sndchg := rfl
@[simp] theorem State.push_mem (s : State) (w : Word) : (s.push w).mem = s.mem := rfl
@[simp] theorem State.push_font (s : State) (w : Word) : (s.push w).font = s.font := rfl
@[simp] theorem State.push_acc (s : State) (w : Word) : (s.push w).acc = s.acc := rfl
@[simp] theorem State.push_fault (s : State) (w : Word) : (s.push w).fault = s.fault := rfl
@[simp] theorem State.push_draws (s : State) (w : Word) : (s.push w).draws = s.draws := rfl
@[simp] theorem State.push_lifecycle (s : State) (w : Word) : (s.push w).lifecycle = s.lifecycle := rfl
@[simp] theorem State.push_schedule (s : State) (w : Word) : (s.push w).schedule = s.schedule := rfl
@[simp] theorem State.push_environment (s : State) (w : Word) : (s.push w).environment = s.environment := rfl
@[simp] theorem State.push_reply (s : State) (w : Word) : (s.push w).reply = s.reply := rfl

@[simp] theorem State.pop_v (s : State) : s.pop.v = s.v := rfl
@[simp] theorem State.pop_index (s : State) : s.pop.index = s.index := rfl
@[simp] theorem State.pop_pc (s : State) : s.pop.pc = s.pc := rfl
@[simp] theorem State.pop_stack (s : State) : s.pop.stack = s.stack := rfl
@[simp] theorem State.pop_sp (s : State) : s.pop.sp = s.sp - 1 := rfl
@[simp] theorem State.pop_dt (s : State) : s.pop.dt = s.dt := rfl
@[simp] theorem State.pop_st (s : State) : s.pop.st = s.st := rfl
@[simp] theorem State.pop_fb (s : State) : s.pop.fb = s.fb := rfl
@[simp] theorem State.pop_keys (s : State) : s.pop.keys = s.keys := rfl
@[simp] theorem State.pop_wrap (s : State) : s.pop.wrap = s.wrap := rfl
@[simp] theorem State.pop_redraw (s : State) : s.pop.redraw = s.redraw := rfl
@[simp] theorem State.pop_sndchg (s : State) : s.pop.sndchg = s.sndchg := rfl
@[simp] theorem State.pop_mem (s : State) : s.pop.mem = s.mem := rfl
@[simp] theorem State.pop_font (s : State) : s.pop.font = s.font := rfl
@[simp] theorem State.pop_acc (s : State) : s.pop.acc = s.acc := rfl
@[simp] theorem State.pop_fault (s : State) : s.pop.fault = s.fault := rfl
@[simp] theorem State.pop_draws (s : State) : s.pop.draws = s.draws := rfl
@[simp] theorem State.pop_lifecycle (s : State) : s.pop.lifecycle = s.lifecycle := rfl
@[simp] theorem State.pop_schedule (s : State) : s.pop.schedule = s.schedule := rfl
@[simp] theorem State.pop_environment (s : State) : s.pop.environment = s.environment := rfl
@[simp] theorem State.pop_reply (s : State) : s.pop.reply = s.reply := rfl

@[simp] theorem State.setDelay_v (s : State) (b : Byte) : (s.setDelay b).v = s.v := rfl
@[simp] theorem State.setDelay_index (s : State) (b : Byte) : (s.setDelay b).index = s.index := rfl
@[simp] theorem State.setDelay_pc (s : State) (b : Byte) : (s.setDelay b).pc = s.pc := rfl
@[simp] theorem State.setDelay_stack (s : State) (b : Byte) : (s.setDelay b).stack = s.stack := rfl
@[simp] theorem State.setDelay_sp (s : State) (b : Byte) : (s.setDelay b).sp = s.sp := rfl
@[simp] theorem State.setDelay_dt (s : State) (b : Byte) : (s.setDelay b).dt = b := rfl
@[simp] theorem State.setDelay_st (s : State) (b : Byte) : (s.setDelay b).st = s.st := rfl
@[simp] theorem State.setDelay_fb (s : State) (b : Byte) : (s.setDelay b).fb = s.fb := rfl
@[simp] theorem State.setDelay_keys (s : State) (b : Byte) : (s.setDelay b).keys = s.keys := rfl
@[simp] theorem State.setDelay_wrap (s : State) (b : Byte) : (s.setDelay b).wrap = s.wrap := rfl
@[simp] theorem State.setDelay_redraw (s : State) (b : Byte) : (s.setDelay b).redraw = s.redraw := rfl
@[simp] theorem State.setDelay_sndchg (s : State) (b : Byte) : (s.setDelay b).sndchg = s.sndchg := rfl
@[simp] theorem State.setDelay_mem (s : State) (b : Byte) : (s.setDelay b).mem = s.mem := rfl
@[simp] theorem State.setDelay_font (s : State) (b : Byte) : (s.setDelay b).font = s.font := rfl
@[simp] theorem State.setDelay_acc (s : State) (b : Byte) : (s.setDelay b).acc = s.acc := rfl
@[simp] theorem State.setDelay_fault (s : State) (b : Byte) : (s.setDelay b).fault = s.fault := rfl
@[simp] theorem State.setDelay_draws (s : State) (b : Byte) : (s.setDelay b).draws = s.draws := rfl
@[simp] theorem State.setDelay_lifecycle (s : State) (b : Byte) : (s.setDelay b).lifecycle = s.lifecycle := rfl
@[simp] theorem State.setDelay_schedule (s : State) (b : Byte) : (s.setDelay b).schedule = s.schedule := rfl
@[simp] theorem State.setDelay_environment (s : State) (b : Byte) : (s.setDelay b).environment = s.environment := rfl
@[simp] theorem State.setDelay_reply (s : State) (b : Byte) : (s.setDelay b).reply = s.reply := rfl

@[simp] theorem State.setSound_v (s : State) (b : Byte) : (s.setSound b).v = s.v := rfl
@[simp] theorem State.setSound_index (s : State) (b : Byte) : (s.setSound b).index = s.index := rfl
@[simp] theorem State.setSound_pc (s : State) (b : Byte) : (s.setSound b).pc = s.pc := rfl
@[simp] theorem State.setSound_stack (s : State) (b : Byte) : (s.setSound b).stack = s.stack := rfl
@[simp] theorem State.setSound_sp (s : State) (b : Byte) : (s.setSound b).sp = s.sp := rfl
@[simp] theorem State.setSound_dt (s : State) (b : Byte) : (s.setSound b).dt = s.dt := rfl
@[simp] theorem State.setSound_st (s : State) (b : Byte) : (s.setSound b).st = b := rfl
@[simp] theorem State.setSound_fb (s : State) (b : Byte) : (s.setSound b).fb = s.fb := rfl
@[simp] theorem State.setSound_keys (s : State) (b : Byte) : (s.setSound b).keys = s.keys := rfl
@[simp] theorem State.setSound_wrap (s : State) (b : Byte) : (s.setSound b).wrap = s.wrap := rfl
@[simp] theorem State.setSound_redraw (s : State) (b : Byte) : (s.setSound b).redraw = s.redraw := rfl
@[simp] theorem State.setSound_sndchg (s : State) (b : Byte) : (s.setSound b).sndchg = true := rfl
@[simp] theorem State.setSound_mem (s : State) (b : Byte) : (s.setSound b).mem = s.mem := rfl
@[simp] theorem State.setSound_font (s : State) (b : Byte) : (s.setSound b).font = s.font := rfl
@[simp] theorem State.setSound_acc (s : State) (b : Byte) : (s.setSound b).acc = s.acc := rfl
@[simp] theorem State.setSound_fault (s : State) (b : Byte) : (s.setSound b).fault = s.fault := rfl
@[simp] theorem State.setSound_draws (s : State) (b : Byte) : (s.setSound b).draws = s.draws := rfl
@[simp] theorem State.setSound_lifecycle (s : State) (b : Byte) : (s.setSound b).lifecycle = s.lifecycle := rfl
@[simp] theorem State.setSound_schedule (s : State) (b : Byte) : (s.setSound b).schedule = s.schedule := rfl
@[simp] theorem State.setSound_environment (s : State) (b : Byte) : (s.setSound b).environment = s.environment := rfl
@[simp] theorem State.setSound_reply (s : State) (b : Byte) : (s.setSound b).reply = s.reply := rfl

@[simp] theorem State.display_v (s : State) (fb : Framebuffer) : (s.display fb).v = s.v := rfl
@[simp] theorem State.display_index (s : State) (fb : Framebuffer) : (s.display fb).index = s.index := rfl
@[simp] theorem State.display_pc (s : State) (fb : Framebuffer) : (s.display fb).pc = s.pc := rfl
@[simp] theorem State.display_stack (s : State) (fb : Framebuffer) : (s.display fb).stack = s.stack := rfl
@[simp] theorem State.display_sp (s : State) (fb : Framebuffer) : (s.display fb).sp = s.sp := rfl
@[simp] theorem State.display_dt (s : State) (fb : Framebuffer) : (s.display fb).dt = s.dt := rfl
@[simp] theorem State.display_st (s : State) (fb : Framebuffer) : (s.display fb).st = s.st := rfl
@[simp] theorem State.display_fb (s : State) (fb : Framebuffer) : (s.display fb).fb = fb := rfl
@[simp] theorem State.display_keys (s : State) (fb : Framebuffer) : (s.display fb).keys = s.keys := rfl
@[simp] theorem State.display_wrap (s : State) (fb : Framebuffer) : (s.display fb).wrap = s.wrap := rfl
@[simp] theorem State.display_redraw (s : State) (fb : Framebuffer) : (s.display fb).redraw = true := rfl
@[simp] theorem State.display_sndchg (s : State) (fb : Framebuffer) : (s.display fb).sndchg = s.sndchg := rfl
@[simp] theorem State.display_mem (s : State) (fb : Framebuffer) : (s.display fb).mem = s.mem := rfl
@[simp] theorem State.display_font (s : State) (fb : Framebuffer) : (s.display fb).font = s.font := rfl
@[simp] theorem State.display_acc (s : State) (fb : Framebuffer) : (s.display fb).acc = s.acc := rfl
@[simp] theorem State.display_fault (s : State) (fb : Framebuffer) : (s.display fb).fault = s.fault := rfl
@[simp] theorem State.display_draws (s : State) (fb : Framebuffer) : (s.display fb).draws = s.draws := rfl
@[simp] theorem State.display_lifecycle (s : State) (fb : Framebuffer) : (s.display fb).lifecycle = s.lifecycle := rfl
@[simp] theorem State.display_schedule (s : State) (fb : Framebuffer) : (s.display fb).schedule = s.schedule := rfl
@[simp] theorem State.display_environment (s : State) (fb : Framebuffer) : (s.display fb).environment = s.environment := rfl
@[simp] theorem State.display_reply (s : State) (fb : Framebuffer) : (s.display fb).reply = s.reply := rfl

@[simp] theorem State.setMem_v (s : State) (m : Memory) : (s.setMem m).v = s.v := rfl
@[simp] theorem State.setMem_index (s : State) (m : Memory) : (s.setMem m).index = s.index := rfl
@[simp] theorem State.setMem_pc (s : State) (m : Memory) : (s.setMem m).pc = s.pc := rfl
@[simp] theorem State.setMem_stack (s : State) (m : Memory) : (s.setMem m).stack = s.stack := rfl
@[simp] theorem State.setMem_sp (s : State) (m : Memory) : (s.setMem m).sp = s.sp := rfl
@[simp] theorem State.setMem_dt (s : State) (m : Memory) : (s.setMem m).dt = s.dt := rfl
@[simp] theorem State.setMem_st (s : State) (m : Memory) : (s.setMem m).st = s.st := rfl
@[simp] theorem State.setMem_fb (s : State) (m : Memory) : (s.setMem m).fb = s.fb := rfl
@[simp] theorem State.setMem_keys (s : State) (m : Memory) : (s.setMem m).keys = s.keys := rfl
@[simp] theorem State.setMem_wrap (s : State) (m : Memory) : (s.setMem m).wrap = s.wrap := rfl
@[simp] theorem State.setMem_redraw (s : State) (m : Memory) : (s.setMem m).redraw = s.redraw := rfl
@[simp] theorem State.setMem_sndchg (s : State) (m : Memory) : (s.setMem m).sndchg = s.sndchg := rfl
@[simp] theorem State.setMem_mem (s : State) (m : Memory) : (s.setMem m).mem = m := rfl
@[simp] theorem State.setMem_font (s : State) (m : Memory) : (s.setMem m).font = s.font := rfl
@[simp] theorem State.setMem_acc (s : State) (m : Memory) : (s.setMem m).acc = s.acc := rfl
@[simp] theorem State.setMem_fault (s : State) (m : Memory) : (s.setMem m).fault = s.fault := rfl
@[simp] theorem State.setMem_draws (s : State) (m : Memory) : (s.setMem m).draws = s.draws := rfl
@[simp] theorem State.setMem_lifecycle (s : State) (m : Memory) : (s.setMem m).lifecycle = s.lifecycle := rfl
@[simp] theorem State.setMem_schedule (s : State) (m : Memory) : (s.setMem m).schedule = s.schedule := rfl
@[simp] theorem State.setMem_environment (s : State) (m : Memory) : (s.setMem m).environment = s.environment := rfl
@[simp] theorem State.setMem_reply (s : State) (m : Memory) : (s.setMem m).reply = s.reply := rfl

@[simp] theorem State.countDraw_v (s : State) : s.countDraw.v = s.v := rfl
@[simp] theorem State.countDraw_index (s : State) : s.countDraw.index = s.index := rfl
@[simp] theorem State.countDraw_pc (s : State) : s.countDraw.pc = s.pc := rfl
@[simp] theorem State.countDraw_stack (s : State) : s.countDraw.stack = s.stack := rfl
@[simp] theorem State.countDraw_sp (s : State) : s.countDraw.sp = s.sp := rfl
@[simp] theorem State.countDraw_dt (s : State) : s.countDraw.dt = s.dt := rfl
@[simp] theorem State.countDraw_st (s : State) : s.countDraw.st = s.st := rfl
@[simp] theorem State.countDraw_fb (s : State) : s.countDraw.fb = s.fb := rfl
@[simp] theorem State.countDraw_keys (s : State) : s.countDraw.keys = s.keys := rfl
@[simp] theorem State.countDraw_wrap (s : State) : s.countDraw.wrap = s.wrap := rfl
@[simp] theorem State.countDraw_redraw (s : State) : s.countDraw.redraw = s.redraw := rfl
@[simp] theorem State.countDraw_sndchg (s : State) : s.countDraw.sndchg = s.sndchg := rfl
@[simp] theorem State.countDraw_mem (s : State) : s.countDraw.mem = s.mem := rfl
@[simp] theorem State.countDraw_font (s : State) : s.countDraw.font = s.font := rfl
@[simp] theorem State.countDraw_acc (s : State) : s.countDraw.acc = s.acc := rfl
@[simp] theorem State.countDraw_fault (s : State) : s.countDraw.fault = s.fault := rfl
@[simp] theorem State.countDraw_draws (s : State) : s.countDraw.draws = s.draws + 1 := rfl
@[simp] theorem State.countDraw_lifecycle (s : State) : s.countDraw.lifecycle = s.lifecycle := rfl
@[simp] theorem State.countDraw_schedule (s : State) : s.countDraw.schedule = s.schedule := rfl
@[simp] theorem State.countDraw_environment (s : State) : s.countDraw.environment = s.environment := rfl
@[simp] theorem State.countDraw_reply (s : State) : s.countDraw.reply = s.reply := rfl

@[simp] theorem State.setFault_v (s : State) (c : Condition) : (s.setFault c).v = s.v := rfl
@[simp] theorem State.setFault_index (s : State) (c : Condition) : (s.setFault c).index = s.index := rfl
@[simp] theorem State.setFault_pc (s : State) (c : Condition) : (s.setFault c).pc = s.pc := rfl
@[simp] theorem State.setFault_stack (s : State) (c : Condition) : (s.setFault c).stack = s.stack := rfl
@[simp] theorem State.setFault_sp (s : State) (c : Condition) : (s.setFault c).sp = s.sp := rfl
@[simp] theorem State.setFault_dt (s : State) (c : Condition) : (s.setFault c).dt = s.dt := rfl
@[simp] theorem State.setFault_st (s : State) (c : Condition) : (s.setFault c).st = s.st := rfl
@[simp] theorem State.setFault_fb (s : State) (c : Condition) : (s.setFault c).fb = s.fb := rfl
@[simp] theorem State.setFault_keys (s : State) (c : Condition) : (s.setFault c).keys = s.keys := rfl
@[simp] theorem State.setFault_wrap (s : State) (c : Condition) : (s.setFault c).wrap = s.wrap := rfl
@[simp] theorem State.setFault_redraw (s : State) (c : Condition) : (s.setFault c).redraw = s.redraw := rfl
@[simp] theorem State.setFault_sndchg (s : State) (c : Condition) : (s.setFault c).sndchg = s.sndchg := rfl
@[simp] theorem State.setFault_mem (s : State) (c : Condition) : (s.setFault c).mem = s.mem := rfl
@[simp] theorem State.setFault_font (s : State) (c : Condition) : (s.setFault c).font = s.font := rfl
@[simp] theorem State.setFault_acc (s : State) (c : Condition) : (s.setFault c).acc = s.acc := rfl
@[simp] theorem State.setFault_fault (s : State) (c : Condition) : (s.setFault c).fault = some c := rfl
@[simp] theorem State.setFault_draws (s : State) (c : Condition) : (s.setFault c).draws = s.draws := rfl
@[simp] theorem State.setFault_lifecycle (s : State) (c : Condition) : (s.setFault c).lifecycle = s.lifecycle := rfl
@[simp] theorem State.setFault_schedule (s : State) (c : Condition) : (s.setFault c).schedule = s.schedule := rfl
@[simp] theorem State.setFault_environment (s : State) (c : Condition) : (s.setFault c).environment = s.environment := rfl
@[simp] theorem State.setFault_reply (s : State) (c : Condition) : (s.setFault c).reply = s.reply := rfl

@[simp] theorem State.timerRound_v (s : State) : s.timerRound.v = s.v := rfl
@[simp] theorem State.timerRound_index (s : State) : s.timerRound.index = s.index := rfl
@[simp] theorem State.timerRound_pc (s : State) : s.timerRound.pc = s.pc := rfl
@[simp] theorem State.timerRound_stack (s : State) : s.timerRound.stack = s.stack := rfl
@[simp] theorem State.timerRound_sp (s : State) : s.timerRound.sp = s.sp := rfl
@[simp] theorem State.timerRound_dt (s : State) : s.timerRound.dt = countDown s.dt := rfl
@[simp] theorem State.timerRound_st (s : State) : s.timerRound.st = countDown s.st := rfl
@[simp] theorem State.timerRound_fb (s : State) : s.timerRound.fb = s.fb := rfl
@[simp] theorem State.timerRound_keys (s : State) : s.timerRound.keys = s.keys := rfl
@[simp] theorem State.timerRound_wrap (s : State) : s.timerRound.wrap = s.wrap := rfl
@[simp] theorem State.timerRound_redraw (s : State) : s.timerRound.redraw = s.redraw := rfl
@[simp] theorem State.timerRound_sndchg (s : State) : s.timerRound.sndchg = s.sndchg := rfl
@[simp] theorem State.timerRound_mem (s : State) : s.timerRound.mem = s.mem := rfl
@[simp] theorem State.timerRound_font (s : State) : s.timerRound.font = s.font := rfl
@[simp] theorem State.timerRound_acc (s : State) : s.timerRound.acc = s.acc := rfl
@[simp] theorem State.timerRound_fault (s : State) : s.timerRound.fault = s.fault := rfl
@[simp] theorem State.timerRound_draws (s : State) : s.timerRound.draws = s.draws := rfl
@[simp] theorem State.timerRound_lifecycle (s : State) : s.timerRound.lifecycle = s.lifecycle := rfl
@[simp] theorem State.timerRound_schedule (s : State) : s.timerRound.schedule = s.schedule := rfl
@[simp] theorem State.timerRound_environment (s : State) : s.timerRound.environment = s.environment := rfl
@[simp] theorem State.timerRound_reply (s : State) : s.timerRound.reply = s.reply := rfl

@[simp] theorem State.withSchedule_v (s : State) (rest : List Event) : (s.withSchedule rest).v = s.v := rfl
@[simp] theorem State.withSchedule_index (s : State) (rest : List Event) : (s.withSchedule rest).index = s.index := rfl
@[simp] theorem State.withSchedule_pc (s : State) (rest : List Event) : (s.withSchedule rest).pc = s.pc := rfl
@[simp] theorem State.withSchedule_stack (s : State) (rest : List Event) : (s.withSchedule rest).stack = s.stack := rfl
@[simp] theorem State.withSchedule_sp (s : State) (rest : List Event) : (s.withSchedule rest).sp = s.sp := rfl
@[simp] theorem State.withSchedule_dt (s : State) (rest : List Event) : (s.withSchedule rest).dt = s.dt := rfl
@[simp] theorem State.withSchedule_st (s : State) (rest : List Event) : (s.withSchedule rest).st = s.st := rfl
@[simp] theorem State.withSchedule_fb (s : State) (rest : List Event) : (s.withSchedule rest).fb = s.fb := rfl
@[simp] theorem State.withSchedule_keys (s : State) (rest : List Event) : (s.withSchedule rest).keys = s.keys := rfl
@[simp] theorem State.withSchedule_wrap (s : State) (rest : List Event) : (s.withSchedule rest).wrap = s.wrap := rfl
@[simp] theorem State.withSchedule_redraw (s : State) (rest : List Event) : (s.withSchedule rest).redraw = s.redraw := rfl
@[simp] theorem State.withSchedule_sndchg (s : State) (rest : List Event) : (s.withSchedule rest).sndchg = s.sndchg := rfl
@[simp] theorem State.withSchedule_mem (s : State) (rest : List Event) : (s.withSchedule rest).mem = s.mem := rfl
@[simp] theorem State.withSchedule_font (s : State) (rest : List Event) : (s.withSchedule rest).font = s.font := rfl
@[simp] theorem State.withSchedule_acc (s : State) (rest : List Event) : (s.withSchedule rest).acc = s.acc := rfl
@[simp] theorem State.withSchedule_fault (s : State) (rest : List Event) : (s.withSchedule rest).fault = s.fault := rfl
@[simp] theorem State.withSchedule_draws (s : State) (rest : List Event) : (s.withSchedule rest).draws = s.draws := rfl
@[simp] theorem State.withSchedule_lifecycle (s : State) (rest : List Event) : (s.withSchedule rest).lifecycle = s.lifecycle := rfl
@[simp] theorem State.withSchedule_schedule (s : State) (rest : List Event) : (s.withSchedule rest).schedule = rest := rfl
@[simp] theorem State.withSchedule_environment (s : State) (rest : List Event) : (s.withSchedule rest).environment = s.environment := rfl
@[simp] theorem State.withSchedule_reply (s : State) (rest : List Event) : (s.withSchedule rest).reply = s.reply := rfl

@[simp] theorem State.storeBytes_v (s : State) (a : Nat) (bs : List Byte) : (s.storeBytes a bs).v = s.v := rfl
@[simp] theorem State.storeBytes_index (s : State) (a : Nat) (bs : List Byte) : (s.storeBytes a bs).index = s.index := rfl
@[simp] theorem State.storeBytes_pc (s : State) (a : Nat) (bs : List Byte) : (s.storeBytes a bs).pc = s.pc := rfl
@[simp] theorem State.storeBytes_stack (s : State) (a : Nat) (bs : List Byte) : (s.storeBytes a bs).stack = s.stack := rfl
@[simp] theorem State.storeBytes_sp (s : State) (a : Nat) (bs : List Byte) : (s.storeBytes a bs).sp = s.sp := rfl
@[simp] theorem State.storeBytes_dt (s : State) (a : Nat) (bs : List Byte) : (s.storeBytes a bs).dt = s.dt := rfl
@[simp] theorem State.storeBytes_st (s : State) (a : Nat) (bs : List Byte) : (s.storeBytes a bs).st = s.st := rfl
@[simp] theorem State.storeBytes_fb (s : State) (a : Nat) (bs : List Byte) : (s.storeBytes a bs).fb = s.fb := rfl
@[simp] theorem State.storeBytes_keys (s : State) (a : Nat) (bs : List Byte) : (s.storeBytes a bs).keys = s.keys := rfl
@[simp] theorem State.storeBytes_wrap (s : State) (a : Nat) (bs : List Byte) : (s.storeBytes a bs).wrap = s.wrap := rfl
@[simp] theorem State.storeBytes_redraw (s : State) (a : Nat) (bs : List Byte) : (s.storeBytes a bs).redraw = s.redraw := rfl
@[simp] theorem State.storeBytes_sndchg (s : State) (a : Nat) (bs : List Byte) : (s.storeBytes a bs).sndchg = s.sndchg := rfl
@[simp] theorem State.storeBytes_mem (s : State) (a : Nat) (bs : List Byte) : (s.storeBytes a bs).mem = s.mem.writeBytes s.font a bs := rfl
@[simp] theorem State.storeBytes_font (s : State) (a : Nat) (bs : List Byte) : (s.storeBytes a bs).font = s.font := rfl
@[simp] theorem State.storeBytes_acc (s : State) (a : Nat) (bs : List Byte) : (s.storeBytes a bs).acc = s.acc := rfl
@[simp] theorem State.storeBytes_fault (s : State) (a : Nat) (bs : List Byte) : (s.storeBytes a bs).fault = s.fault := rfl
@[simp] theorem State.storeBytes_draws (s : State) (a : Nat) (bs : List Byte) : (s.storeBytes a bs).draws = s.draws := rfl
@[simp] theorem State.storeBytes_lifecycle (s : State) (a : Nat) (bs : List Byte) : (s.storeBytes a bs).lifecycle = s.lifecycle := rfl
@[simp] theorem State.storeBytes_schedule (s : State) (a : Nat) (bs : List Byte) : (s.storeBytes a bs).schedule = s.schedule := rfl
@[simp] theorem State.storeBytes_environment (s : State) (a : Nat) (bs : List Byte) : (s.storeBytes a bs).environment = s.environment := rfl
@[simp] theorem State.storeBytes_reply (s : State) (a : Nat) (bs : List Byte) : (s.storeBytes a bs).reply = s.reply := rfl

@[simp] theorem State.withEnvironment_v (s : State) (e : Environment) : (s.withEnvironment e).v = s.v := rfl
@[simp] theorem State.withEnvironment_index (s : State) (e : Environment) : (s.withEnvironment e).index = s.index := rfl
@[simp] theorem State.withEnvironment_pc (s : State) (e : Environment) : (s.withEnvironment e).pc = s.pc := rfl
@[simp] theorem State.withEnvironment_stack (s : State) (e : Environment) : (s.withEnvironment e).stack = s.stack := rfl
@[simp] theorem State.withEnvironment_sp (s : State) (e : Environment) : (s.withEnvironment e).sp = s.sp := rfl
@[simp] theorem State.withEnvironment_dt (s : State) (e : Environment) : (s.withEnvironment e).dt = s.dt := rfl
@[simp] theorem State.withEnvironment_st (s : State) (e : Environment) : (s.withEnvironment e).st = s.st := rfl
@[simp] theorem State.withEnvironment_fb (s : State) (e : Environment) : (s.withEnvironment e).fb = s.fb := rfl
@[simp] theorem State.withEnvironment_keys (s : State) (e : Environment) : (s.withEnvironment e).keys = s.keys := rfl
@[simp] theorem State.withEnvironment_wrap (s : State) (e : Environment) : (s.withEnvironment e).wrap = s.wrap := rfl
@[simp] theorem State.withEnvironment_redraw (s : State) (e : Environment) : (s.withEnvironment e).redraw = s.redraw := rfl
@[simp] theorem State.withEnvironment_sndchg (s : State) (e : Environment) : (s.withEnvironment e).sndchg = s.sndchg := rfl
@[simp] theorem State.withEnvironment_mem (s : State) (e : Environment) : (s.withEnvironment e).mem = s.mem := rfl
@[simp] theorem State.withEnvironment_font (s : State) (e : Environment) : (s.withEnvironment e).font = s.font := rfl
@[simp] theorem State.withEnvironment_acc (s : State) (e : Environment) : (s.withEnvironment e).acc = s.acc := rfl
@[simp] theorem State.withEnvironment_fault (s : State) (e : Environment) : (s.withEnvironment e).fault = s.fault := rfl
@[simp] theorem State.withEnvironment_draws (s : State) (e : Environment) : (s.withEnvironment e).draws = s.draws := rfl
@[simp] theorem State.withEnvironment_lifecycle (s : State) (e : Environment) : (s.withEnvironment e).lifecycle = s.lifecycle := rfl
@[simp] theorem State.withEnvironment_schedule (s : State) (e : Environment) : (s.withEnvironment e).schedule = s.schedule := rfl
@[simp] theorem State.withEnvironment_environment (s : State) (e : Environment) : (s.withEnvironment e).environment = e := rfl
@[simp] theorem State.withEnvironment_reply (s : State) (e : Environment) : (s.withEnvironment e).reply = s.reply := rfl

end Sys2Proof.Machine
end

