-- ==== Sys2Proof/Laws/Ops.lean ====
section
/-! SUPPORT. One lemma for each shared operation that says all it can do: registers, the ends of an
instruction, memory access, and the instruction fetch. -/

namespace Sys2Proof.Machine

/-! ### Registers -/

/-- All that writing a register does to reads of registers. -/
theorem State.reg_setReg (s : State) (x y : Reg) (b : Byte) :
    (s.setReg x b).reg y = if y = x then b else s.reg y := by
  simp only [State.reg, State.setReg_v, Fin.getElem_fin, Vector.getElem_set]
  by_cases h : x = y
  · simp [h]
  · rw [if_neg (fun e => h (Fin.ext e)), if_neg (Ne.symm h)]

/-- All that writing the flag does to reads of registers. -/
theorem State.reg_setFlag (s : State) (y : Reg) (f : Bool) :
    (s.setFlag f).reg y = if y = regVF then (if f then 1 else 0) else s.reg y :=
  State.reg_setReg s regVF y _

/-- A register read sees only the register file. -/
theorem State.reg_congr (s t : State) (h : t.v = s.v) (x : Reg) : t.reg x = s.reg x := by
  simp [State.reg, h]

@[simp] theorem State.reg_setIndex (s : State) (w : Word) (x : Reg) : (s.setIndex w).reg x = s.reg x := rfl
@[simp] theorem State.reg_setPc (s : State) (w : Word) (x : Reg) : (s.setPc w).reg x = s.reg x := rfl
@[simp] theorem State.reg_nextInstr (s : State) (x : Reg) : s.nextInstr.reg x = s.reg x := rfl
@[simp] theorem State.reg_skipInstr (s : State) (x : Reg) : s.skipInstr.reg x = s.reg x := rfl
@[simp] theorem State.reg_push (s : State) (w : Word) (x : Reg) : (s.push w).reg x = s.reg x := rfl
@[simp] theorem State.reg_pop (s : State) (x : Reg) : s.pop.reg x = s.reg x := rfl
@[simp] theorem State.reg_setDelay (s : State) (b : Byte) (x : Reg) : (s.setDelay b).reg x = s.reg x := rfl
@[simp] theorem State.reg_setSound (s : State) (b : Byte) (x : Reg) : (s.setSound b).reg x = s.reg x := rfl
@[simp] theorem State.reg_display (s : State) (fb : Framebuffer) (x : Reg) :
    (s.display fb).reg x = s.reg x := rfl
@[simp] theorem State.reg_setMem (s : State) (m : Memory) (x : Reg) : (s.setMem m).reg x = s.reg x := rfl
@[simp] theorem State.reg_countDraw (s : State) (x : Reg) : s.countDraw.reg x = s.reg x := rfl
@[simp] theorem State.reg_setFault (s : State) (c : Condition) (x : Reg) :
    (s.setFault c).reg x = s.reg x := rfl

/-- After LDREGS registers 0 to `x` hold the bytes from `I` on, the others are unchanged. -/
theorem State.reg_setRegs_loadedRegs (s : State) (x k : Reg) :
    (s.setRegs (s.loadedRegs x)).reg k = if k ≤ x then s.byteAt (s.base + k.val) else s.reg k := by
  simp [State.reg, State.loadedRegs]

@[simp] theorem State.firstRegs_length (s : State) (x : Reg) : (s.firstRegs x).length = x.val + 1 := by
  simp [State.firstRegs]

/-- Byte `k` of the stored block is register `k`. -/
theorem State.firstRegs_getD (s : State) (x k : Reg) (h : k ≤ x) :
    (s.firstRegs x).getD k.val 0 = s.reg k := by
  have hk : k.val < x.val + 1 := by simp only [Fin.le_def] at h; omega
  simp [State.firstRegs, State.reg, List.getD_eq_getElem?_getD, hk]

@[simp] theorem State.reg_storeBytes (s : State) (a : Nat) (bs : List Byte) (x : Reg) :
    (s.storeBytes a bs).reg x = s.reg x := rfl
@[simp] theorem State.reg_withSchedule (s : State) (rest : List Event) (x : Reg) :
    (s.withSchedule rest).reg x = s.reg x := rfl
@[simp] theorem State.reg_withEnvironment (s : State) (e : Environment) (x : Reg) :
    (s.withEnvironment e).reg x = s.reg x := rfl

/-! ### Bytes of memory -/

/-- A byte read sees only memory and the font. -/
theorem State.byteAt_congr (s t : State) (h : t.mem = s.mem) (hf : t.font = s.font) (a : Nat) :
    t.byteAt a = s.byteAt a := by
  simp [State.byteAt, h, hf]

/-- All that storing bytes in range does to reads of bytes. -/
theorem State.byteAt_storeBytes (s : State) (a c : Nat) (bs : List Byte) (h : s.memWf)
    (ha : a + bs.length ≤ memSize) :
    (s.storeBytes a bs).byteAt c = if a ≤ c ∧ c < a + bs.length then bs.getD (c - a) 0 else s.byteAt c :=
  Memory.read_writeBytes s.font s.mem a c bs h ha

/-- Storing bytes in range keeps memory canonical. -/
theorem State.memWf_storeBytes (s : State) (a : Nat) (bs : List Byte) (h : s.memWf)
    (ha : a + bs.length ≤ memSize) : (s.storeBytes a bs).memWf :=
  Memory.wf_writeBytes s.font s.mem a bs h ha

/-- With no cell listed, memory holds the font in 0 to 79 and 0 above (10_state.md R40). -/
theorem State.byteAt_of_nil (s : State) (h : s.mem = []) (a : Nat) :
    s.byteAt a = if ha : a < 80 then s.font[a] else 0 := by
  simp only [State.byteAt, h, Memory.read_nil, Memory.unlisted]
  split <;> simp [*]

/-- Byte `k` of a sprite is the byte at `I + k`. -/
theorem State.sprite_getElem (s : State) (n k : Nat) (h : k < n) :
    (s.sprite n)[k]'(by simpa [State.sprite] using h) = s.byteAt (s.base + k) :=
  Memory.readBytes_getElem s.font s.mem s.base n k h

@[simp] theorem State.byteAt_setReg (s : State) (x : Reg) (b : Byte) (a : Nat) :
    (s.setReg x b).byteAt a = s.byteAt a := rfl
@[simp] theorem State.byteAt_setFlag (s : State) (f : Bool) (a : Nat) :
    (s.setFlag f).byteAt a = s.byteAt a := rfl
@[simp] theorem State.byteAt_setRegs (s : State) (v : Vector Byte 16) (a : Nat) :
    (s.setRegs v).byteAt a = s.byteAt a := rfl
@[simp] theorem State.byteAt_setIndex (s : State) (w : Word) (a : Nat) :
    (s.setIndex w).byteAt a = s.byteAt a := rfl
@[simp] theorem State.byteAt_setPc (s : State) (w : Word) (a : Nat) : (s.setPc w).byteAt a = s.byteAt a := rfl
@[simp] theorem State.byteAt_nextInstr (s : State) (a : Nat) : s.nextInstr.byteAt a = s.byteAt a := rfl
@[simp] theorem State.byteAt_skipInstr (s : State) (a : Nat) : s.skipInstr.byteAt a = s.byteAt a := rfl
@[simp] theorem State.byteAt_push (s : State) (w : Word) (a : Nat) : (s.push w).byteAt a = s.byteAt a := rfl
@[simp] theorem State.byteAt_pop (s : State) (a : Nat) : s.pop.byteAt a = s.byteAt a := rfl
@[simp] theorem State.byteAt_setDelay (s : State) (b : Byte) (a : Nat) :
    (s.setDelay b).byteAt a = s.byteAt a := rfl
@[simp] theorem State.byteAt_setSound (s : State) (b : Byte) (a : Nat) :
    (s.setSound b).byteAt a = s.byteAt a := rfl
@[simp] theorem State.byteAt_display (s : State) (fb : Framebuffer) (a : Nat) :
    (s.display fb).byteAt a = s.byteAt a := rfl
@[simp] theorem State.byteAt_countDraw (s : State) (a : Nat) : s.countDraw.byteAt a = s.byteAt a := rfl
@[simp] theorem State.byteAt_setFault (s : State) (c : Condition) (a : Nat) :
    (s.setFault c).byteAt a = s.byteAt a := rfl
@[simp] theorem State.byteAt_withSchedule (s : State) (rest : List Event) (a : Nat) :
    (s.withSchedule rest).byteAt a = s.byteAt a := rfl
@[simp] theorem State.byteAt_withEnvironment (s : State) (e : Environment) (a : Nat) :
    (s.withEnvironment e).byteAt a = s.byteAt a := rfl

/-! ### The call stack -/

/-- All that a push does to the entries, while the stack has room. -/
theorem State.stackEntry_push (s : State) (w : Word) (k : Nat) (h : s.sp < 24) :
    (s.push w).stackEntry k = if k = s.sp then w else s.stackEntry k := by
  simp only [State.stackEntry, State.push_stack, Vector.getElem?_setIfInBounds]
  by_cases hk : s.sp = k
  · subst hk; simp [h]
  · rw [if_neg hk, if_neg (Ne.symm hk)]

/-- Every admissible capacity is from 16 to 24 (00_scope.md R8). -/
theorem stackCapacity_bounds : 16 ≤ Config.stackCapacity ∧ Config.stackCapacity ≤ 24 := by
  have := Config.stackEntriesBeyond16.isLt
  unfold Config.stackCapacity
  omega

theorem period_pos : 0 < Config.period := Nat.succ_pos _

theorem dtCap_pos : 0 < Config.dtCap := Nat.succ_pos _

/-! ### Ending an instruction -/

theorem raise_eq (c : Condition) (s : State) : raise c s = .next (s.setFault c) := rfl

theorem done_eq (s : State) : done s = .next s.nextInstr := rfl

theorem skipIf_eq (c : Bool) (s : State) :
    skipIf c s = .next (s.setPc (if c then s.pc + 4 else s.pc + 2)) := by
  cases c <;> rfl

/-- `doneUnless` completes or raises, and nothing else. -/
theorem doneUnless_cases {c : Option Condition} {s t u : State} (h : doneUnless c s t = .next u) :
    (c = none ∧ u = t.nextInstr) ∨ ∃ e, c = some e ∧ u = s.setFault e := by
  cases c with
  | none => exact .inl ⟨rfl, by simpa [doneUnless, done] using h.symm⟩
  | some e => exact .inr ⟨e, rfl, by simpa [doneUnless, raise] using h.symm⟩

/-! ### Access to memory -/

/-- The range test passes exactly when every byte of the range is in memory. -/
theorem rangeFault_eq_none (base count : Nat) :
    rangeFault base count = none ↔ count = 0 ∨ base + count ≤ memSize := by
  unfold rangeFault
  split <;> simp <;> omega

/-- Otherwise it names the lowest address of the range that is out of memory. -/
theorem rangeFault_eq_some (base count : Nat) (h : 0 < count) (hb : memSize < base + count) :
    rangeFault base count = some (.memoryOutOfRange (max base memSize)) := by
  unfold rangeFault
  rw [if_pos (by omega)]

theorem memRead_eq_ok (s : State) (a : Nat) (h : a < memSize) : memRead s a = .ok (s.byteAt a) :=
  if_pos h

theorem memRead_eq_error (s : State) (a : Nat) (h : memSize ≤ a) :
    memRead s a = .error (.memoryOutOfRange a) := if_neg (by omega)

/-- Fetch with both bytes in memory. -/
theorem fetch_eq_ok (s : State) (h : s.pc.toNat + 1 < memSize) :
    fetch s = .ok (wordOfBytes (s.byteAt s.pc.toNat) (s.byteAt (s.pc.toNat + 1))) := by
  simp [fetch, memRead_eq_ok s _ h, memRead_eq_ok s s.pc.toNat (by omega)]

/-- Fetch with `PC` out of memory. -/
theorem fetch_eq_error_first (s : State) (h : memSize ≤ s.pc.toNat) :
    fetch s = .error (.memoryOutOfRange s.pc.toNat) := by
  simp [fetch, memRead_eq_error s _ h]

/-- Fetch with only the second byte out of memory. -/
theorem fetch_eq_error_second (s : State) (h : s.pc.toNat + 1 = memSize) :
    fetch s = .error (.memoryOutOfRange memSize) := by
  simp [fetch, memRead_eq_ok s s.pc.toNat (by omega), h, memRead_eq_error s memSize le_rfl]

end Sys2Proof.Machine
end

