-- ==== Sys2Proof/Laws/Display.lean ====
section
/-! SUPPORT. The framebuffer and one sprite pixel (43_display.md R194, R196). -/

namespace Sys2Proof.Machine

/-- All that a toggle does to cells. -/
theorem Framebuffer.cell_toggle (fb : Framebuffer) (y r : Fin 32) (x c : Fin 64) :
    (fb.toggle y x).cell r c = if r = y ∧ c = x then !fb.cell y x else fb.cell r c := by
  simp only [Framebuffer.cell, Framebuffer.toggle, Fin.getElem_fin, Vector.getElem_set]
  by_cases hr : y = r
  · subst hr
    by_cases hc : x = c
    · subst hc; simp
    · simp [Fin.val_ne_of_ne hc, Ne.symm hc]
  · simp [Fin.val_ne_of_ne hr, Ne.symm hr]

@[simp] theorem Framebuffer.cell_clear (y : Fin 32) (x : Fin 64) : Framebuffer.clear.cell y x = false := by
  simp [Framebuffer.cell, Framebuffer.clear]

/-- Where a sprite pixel lands, said by the rule (43_display.md R196). -/
theorem spriteTarget_eq_some_iff (wrap : Bool) (x y : Nat) (r : Fin 32) (c : Fin 64) :
    spriteTarget wrap x y = some (r, c) ↔ landsOn wrap x y r c := by
  unfold spriteTarget landsOn
  by_cases h : y < 32 ∧ x < 64
  · rw [dif_pos h, if_pos (by omega)]
    simp only [Option.some.injEq, Prod.mk.injEq, Fin.ext_iff]
    exact And.comm
  · have h' : ¬(x ≤ 63 ∧ y ≤ 31) := by omega
    rw [dif_neg h]
    cases wrap
    · simp [h']
    · simp only [h', if_true, if_false, Option.some.injEq, Prod.mk.injEq, Fin.ext_iff, true_and]
      exact And.comm

/-- All that one set pixel does to cells and to the collision: it toggles the cell it lands on, and a set
cell there is a collision. -/
theorem drawPixel_cases (wrap : Bool) (x y : Nat) (p : Framebuffer × Bool) :
    (∃ r c, landsOn wrap x y r c ∧
      drawPixel wrap x y p = (p.1.toggle r c, p.2 || p.1.cell r c)) ∨
    ((∀ r c, ¬ landsOn wrap x y r c) ∧ drawPixel wrap x y p = p) := by
  unfold drawPixel
  cases h : spriteTarget wrap x y with
  | none =>
    refine .inr ⟨fun r c hl => ?_, rfl⟩
    rw [← spriteTarget_eq_some_iff, h] at hl
    cases hl
  | some q =>
    obtain ⟨r, c⟩ := q
    exact .inl ⟨r, c, (spriteTarget_eq_some_iff ..).mp h, rfl⟩

end Sys2Proof.Machine
end

