-- ==== Sys2Proof/Laws/Events.lean ====
section
/-! SUPPORT. One lemma for each shared operation of the keypad, the timer engine and the events. -/

namespace Sys2Proof.Machine

/-! ### Keypad -/

/-- Keeping the last match of an upward scan finds the first match of the downward scan. -/
theorem foldl_keep_last {α : Type} (f : α → Bool) (l : List α) (found : Option α) :
    l.foldl (fun found k => if f k then some k else found) found = (l.reverse.find? f).or found := by
  induction l generalizing found with
  | nil => simp
  | cons a l ih =>
    rw [List.foldl_cons, ih, List.reverse_cons, List.find?_append]
    cases l.reverse.find? f with
    | some b => simp
    | none => by_cases ha : f a <;> simp [ha]

theorem highestKey_eq_find (keys : Vector Bool 16) :
    highestKey keys = (List.finRange 16).reverse.find? (fun k => keys[k]) := by
  simpa [highestKey] using foldl_keep_last (fun k : Fin 16 => keys[k]) (List.finRange 16) none

/-- No key is found exactly when none is pressed. -/
theorem highestKey_eq_none_iff (keys : Vector Bool 16) :
    highestKey keys = none ↔ ∀ k : Fin 16, keys[k] = false := by
  rw [highestKey_eq_find, List.find?_eq_none]
  simp

/-- A key found in a falling list is pressed, and every higher key of the list is not. -/
theorem find?_falling {f : Fin 16 → Bool} {l : List (Fin 16)} {k : Fin 16} (h : l.find? f = some k)
    (hs : l.Pairwise fun p q => q < p) : f k = true ∧ ∀ j ∈ l, k < j → f j = false := by
  obtain ⟨hk, as, bs, rfl, ha⟩ := List.find?_eq_some_iff_append.mp h
  refine ⟨hk, fun j hj hkj => ?_⟩
  rcases List.mem_append.mp hj with hj | hj
  · simpa using ha j hj
  · rcases List.mem_cons.mp hj with hj | hj
    · omega
    · have := (List.pairwise_cons.mp (List.pairwise_append.mp hs).2.1).1 j hj
      omega

/-- The key found is the highest one pressed. -/
theorem highestKey_eq_some (keys : Vector Bool 16) (k : Fin 16) (h : highestKey keys = some k) :
    keys[k] = true ∧ ∀ j : Fin 16, k < j → keys[j] = false := by
  rw [highestKey_eq_find] at h
  have := find?_falling h (by decide)
  exact ⟨this.1, fun j => this.2 j (by simp)⟩

/-! ### Timers -/

/-- A round takes 1 from a timer that is not 0 and leaves 0 alone (60_exceptions.md R247). -/
theorem countDown_toNat (b : Byte) : (countDown b).toNat = b.toNat - 1 := by
  unfold countDown
  split
  · subst b; rfl
  · rename_i hb
    have : b.toNat ≠ 0 := fun h => hb (BitVec.eq_of_toNat_eq h)
    have := b.isLt
    rw [BitVec.toNat_sub]
    simp
    omega

/-! ### Which event comes next -/

/-- The two writings of which event comes next agree. -/
theorem comesNext_iff {s u : State} {e : Event} : s.comesNext e u ↔ s.takeEvent = (e, u) := by
  unfold State.comesNext State.takeEvent
  cases hs : s.schedule with
  | cons d rest =>
    simp only [List.cons.injEq, reduceCtorEq, false_and, exists_false, or_false, Prod.mk.injEq]
    constructor
    · rintro ⟨r, ⟨rfl, rfl⟩, rfl⟩; exact ⟨rfl, rfl⟩
    · rintro ⟨rfl, rfl⟩; exact ⟨rest, ⟨rfl, rfl⟩, rfl⟩
  | nil =>
    cases he : s.environment with
    | stepsOnly => simp [eq_comm]
    | free n => simp [eq_comm]

/-- Every state has a next event. -/
theorem comesNext_takeEvent (s : State) : s.comesNext s.takeEvent.1 s.takeEvent.2 := comesNext_iff.mpr rfl

/-- Taking an event changes nothing but the schedule and the environment. -/
theorem comesNext_cases {s u : State} {e : Event} (h : s.comesNext e u) :
    ∃ rest host, u = (s.withSchedule rest).withEnvironment host := by
  rcases h with ⟨rest, -, h⟩ | ⟨-, -, -, h⟩ | ⟨n, -, -, -, h⟩
  · exact ⟨rest, s.environment, h⟩
  · exact ⟨s.schedule, s.environment, h⟩
  · exact ⟨s.schedule, .free (n + 1), h⟩

/-- All that a step is: the next event, accepted or refused. -/
theorem nextEvent_eq {s u : State} {e : Event} (h : s.comesNext e u) : nextEvent s = runEvent e u := by
  rw [nextEvent, comesNext_iff.mp h]

/-- All that the next event can be when a step answers a next state: one that is accepted. -/
theorem nextEvent_cases {s t : State} (h : nextEvent s = .next t) :
    ∃ e u, s.comesNext e u ∧ refusalOf u.lifecycle e = none ∧ eventEffect e u = .next t := by
  refine ⟨_, _, comesNext_takeEvent s, ?_⟩
  unfold nextEvent runEvent at h
  split at h
  · cases h
  · exact ⟨by assumption, h⟩

/-- An accepted event is what the step does. -/
theorem nextEvent_of_accepted {s u : State} {e : Event} (h : s.comesNext e u)
    (ha : refusalOf s.lifecycle e = none) : nextEvent s = eventEffect e u := by
  have hl : u.lifecycle = s.lifecycle := by obtain ⟨_, _, rfl⟩ := comesNext_cases h; rfl
  simp [nextEvent_eq h, runEvent, hl, ha]

/-- In a running state the step is the Step event. -/
theorem nextEvent_of_running {s u : State} (h : s.running u) : nextEvent s = stepEvent u :=
  nextEvent_of_accepted h.2.2 (by rw [h.1]; rfl)

/-- After the first Reset every event but a Step is accepted. -/
theorem refusalOf_eq_none {l : Lifecycle} {e : Event} (hl : l ≠ .constructed) (he : e ≠ .step) :
    refusalOf l e = none := by
  cases l <;> cases e <;> simp_all [refusalOf]

/-- All that a Step event can do (60_exceptions.md R256). -/
theorem stepEvent_cases (s : State) :
    (s.fault ≠ none ∧ stepEvent s = .next s) ∨
    (∃ c, s.fault = none ∧ fetch s = .error c ∧ stepEvent s = .next (s.setFault c)) ∨
    (∃ w, s.fault = none ∧ fetch s = .ok w ∧ decode w = none ∧
      stepEvent s = .next (s.setFault (.unknownInstruction w))) ∨
    (∃ w i, s.fault = none ∧ fetch s = .ok w ∧ decode w = some i ∧ stepEvent s = exec i s) := by
  unfold stepEvent
  cases hf : s.fault with
  | some c => exact .inl ⟨by simp, rfl⟩
  | none =>
    cases hw : fetch s with
    | error c => exact .inr (.inl ⟨c, rfl, rfl, rfl⟩)
    | ok w =>
      cases hd : decode w with
      | none => exact .inr (.inr (.inl ⟨w, rfl, rfl, hd, by simp [hd, raise]⟩))
      | some i => exact .inr (.inr (.inr ⟨w, i, rfl, rfl, hd, by simp [hd]⟩))

/-- A run goes on from the state a step answers. -/
theorem run_succ_of_step (m : Host.Core) (k : Nat) (s t : m.State) (h : m.step s = .next t) :
    m.run (k + 1) s = m.run k t := by
  simp [Host.Core.run, h]

end Sys2Proof.Machine
end

