-- ==== Sys2Proof/Laws/Frames.lean ====
section
/-! SUPPORT. Frames: how they widen and compose, and the frames of raising a condition and of taking the next
event. -/

namespace Sys2Proof.Machine

theorem unchangedExcept_refl (parts : List Part) (s : State) : unchangedExcept parts s s := by
  intro p _; cases p <;> simp [Part.same]

/-- A frame that lists more parts says less. -/
theorem unchangedExcept.mono {ps qs : List Part} {s t : State} (h : unchangedExcept ps s t)
    (hs : ∀ p ∈ ps, p ∈ qs) : unchangedExcept qs s t := fun p hp => h p fun hq => hp (hs p hq)

theorem Part.same_trans {s t u : State} {p : Part} (h : p.same s t) (h' : p.same t u) : p.same s u := by
  cases p <;> simp_all [Part.same]

/-- Two frames in a row. -/
theorem unchangedExcept.trans {ps : List Part} {s t u : State} (h : unchangedExcept ps s t)
    (h' : unchangedExcept ps t u) : unchangedExcept ps s u := fun p hp =>
  Part.same_trans (h p hp) (h' p hp)

theorem frame_setFault (s : State) (c : Condition) : unchangedExcept [.fault] s (s.setFault c) := by
  intro p hp; cases p <;> simp_all [Part.same, State.stackEntry]

theorem frame_withSchedule (s : State) (rest : List Event) :
    unchangedExcept [.schedule] s (s.withSchedule rest) := by
  intro p hp; cases p <;> simp_all [Part.same, State.stackEntry]

/-- Taking an event leaves every part but the schedule and the environment. -/
theorem frame_comesNext {s u : State} {e : Event} (h : s.comesNext e u) :
    unchangedExcept [.schedule, .environment] s u := by
  intro p hp
  obtain ⟨_, _, rfl⟩ := comesNext_cases h
  cases p <;> simp_all [Part.same, State.stackEntry]

end Sys2Proof.Machine
end

