-- ==== Sys2Proof/Laws/PerInstr.lean ====
section
/-! SUPPORT. Statements about every instruction as syntax, one lemma per constructor. -/

namespace Sys2Proof.Laws.EncodesInRow

/-- The word of an instruction selects a row of the opcode map that bears its mnemonic (30_encoding.md
R96). -/
def Statement (i : Instr) : Prop :=
  ∃ r ∈ opcodeMap, r.mnemonic = i.mnemonic ∧ r.selects (encode i) = true

/-- A row selects a word when the masked word is the row's match value as a number. -/
theorem selects_of_toNat (r : OpcodeRow) (w : Word) (h : (w &&& r.mask).toNat = r.pattern.toNat) :
    r.selects w = true := by
  simp only [OpcodeRow.selects, beq_iff_eq]
  exact BitVec.eq_of_toNat_eq h

/-- A format whose only fixed bits are its op class, in a row of mask 0xF000. -/
theorem selects_class (name : String) (c : BitVec 4) (p w : Word) (k : Nat) (hk : k < 4096)
    (hw : w.toNat = c.toNat * 4096 + k) (hp : p.toNat = c.toNat * 4096) :
    OpcodeRow.selects ⟨name, p, 0xF000#16⟩ w = true := by
  apply selects_of_toNat
  rw [and_F000_toNat, hw, hp]
  omega

/-- A format XY word in a row of mask 0xF00F. -/
theorem selects_XY (name : String) (c s : BitVec 4) (p : Word) (x y : Reg)
    (hp : p.toNat = c.toNat * 4096 + s.toNat) :
    OpcodeRow.selects ⟨name, p, 0xF00F#16⟩ (encodeXY c x y s) = true := by
  apply selects_of_toNat
  rw [and_F00F_toNat, encodeXY_toNat, hp]
  omega

/-- A format X word in a row of mask 0xF0FF. -/
theorem selects_X (name : String) (c : BitVec 4) (b : Byte) (p : Word) (x : Reg)
    (hp : p.toNat = c.toNat * 4096 + b.toNat) :
    OpcodeRow.selects ⟨name, p, 0xF0FF#16⟩ (encodeXNN c x b) = true := by
  apply selects_of_toNat
  rw [and_F0FF_toNat, encodeXNN_toNat, hp]
  omega

theorem cls : Statement .cls :=
  ⟨⟨"CLS", 0x00E0, 0xFFFF⟩, by decide, rfl, by decide⟩

theorem ret : Statement .ret :=
  ⟨⟨"RET", 0x00EE, 0xFFFF⟩, by decide, rfl, by decide⟩

theorem jmp (nnn : Nat) : Statement (.jmp nnn) :=
  ⟨⟨"JMP", 0x1000, 0xF000⟩, by decide, rfl, selects_class _ 0x1#4 _ _ _ (Nat.mod_lt nnn (by decide)) (encodeNNN_toNat _ _) rfl⟩

theorem call (nnn : Nat) : Statement (.call nnn) :=
  ⟨⟨"CALL", 0x2000, 0xF000⟩, by decide, rfl, selects_class _ 0x2#4 _ _ _ (Nat.mod_lt nnn (by decide)) (encodeNNN_toNat _ _) rfl⟩

theorem skeqi (x : Reg) (nn : Byte) : Statement (.skeqi x nn) :=
  ⟨⟨"SKEQI", 0x3000, 0xF000⟩, by decide, rfl, selects_class _ 0x3#4 _ _ (x.val * 256 + nn.toNat) (by omega) (by rw [encode, encodeXNN_toNat]; omega) rfl⟩

theorem sknei (x : Reg) (nn : Byte) : Statement (.sknei x nn) :=
  ⟨⟨"SKNEI", 0x4000, 0xF000⟩, by decide, rfl, selects_class _ 0x4#4 _ _ (x.val * 256 + nn.toNat) (by omega) (by rw [encode, encodeXNN_toNat]; omega) rfl⟩

theorem skeq (x y : Reg) : Statement (.skeq x y) :=
  ⟨⟨"SKEQ", 0x5000, 0xF00F⟩, by decide, rfl, selects_XY _ 0x5#4 0x0#4 _ x y rfl⟩

theorem movi (x : Reg) (nn : Byte) : Statement (.movi x nn) :=
  ⟨⟨"MOVI", 0x6000, 0xF000⟩, by decide, rfl, selects_class _ 0x6#4 _ _ (x.val * 256 + nn.toNat) (by omega) (by rw [encode, encodeXNN_toNat]; omega) rfl⟩

theorem addi (x : Reg) (nn : Byte) : Statement (.addi x nn) :=
  ⟨⟨"ADDI", 0x7000, 0xF000⟩, by decide, rfl, selects_class _ 0x7#4 _ _ (x.val * 256 + nn.toNat) (by omega) (by rw [encode, encodeXNN_toNat]; omega) rfl⟩

theorem mov (x y : Reg) : Statement (.mov x y) :=
  ⟨⟨"MOV", 0x8000, 0xF00F⟩, by decide, rfl, selects_XY _ 0x8#4 0x0#4 _ x y rfl⟩

theorem or (x y : Reg) : Statement (.or x y) :=
  ⟨⟨"OR", 0x8001, 0xF00F⟩, by decide, rfl, selects_XY _ 0x8#4 0x1#4 _ x y rfl⟩

theorem and (x y : Reg) : Statement (.and x y) :=
  ⟨⟨"AND", 0x8002, 0xF00F⟩, by decide, rfl, selects_XY _ 0x8#4 0x2#4 _ x y rfl⟩

theorem xor (x y : Reg) : Statement (.xor x y) :=
  ⟨⟨"XOR", 0x8003, 0xF00F⟩, by decide, rfl, selects_XY _ 0x8#4 0x3#4 _ x y rfl⟩

theorem add (x y : Reg) : Statement (.add x y) :=
  ⟨⟨"ADD", 0x8004, 0xF00F⟩, by decide, rfl, selects_XY _ 0x8#4 0x4#4 _ x y rfl⟩

theorem sub (x y : Reg) : Statement (.sub x y) :=
  ⟨⟨"SUB", 0x8005, 0xF00F⟩, by decide, rfl, selects_XY _ 0x8#4 0x5#4 _ x y rfl⟩

theorem shr (x : Reg) : Statement (.shr x) :=
  ⟨⟨"SHR", 0x8006, 0xF00F⟩, by decide, rfl, selects_XY _ 0x8#4 0x6#4 _ x 0 rfl⟩

theorem rsub (x y : Reg) : Statement (.rsub x y) :=
  ⟨⟨"RSUB", 0x8007, 0xF00F⟩, by decide, rfl, selects_XY _ 0x8#4 0x7#4 _ x y rfl⟩

theorem shl (x : Reg) : Statement (.shl x) :=
  ⟨⟨"SHL", 0x800E, 0xF00F⟩, by decide, rfl, selects_XY _ 0x8#4 0xE#4 _ x 0 rfl⟩

theorem skne (x y : Reg) : Statement (.skne x y) :=
  ⟨⟨"SKNE", 0x9000, 0xF00F⟩, by decide, rfl, selects_XY _ 0x9#4 0x0#4 _ x y rfl⟩

theorem ldidx (nnn : Nat) : Statement (.ldidx nnn) :=
  ⟨⟨"LDIDX", 0xA000, 0xF000⟩, by decide, rfl, selects_class _ 0xA#4 _ _ _ (Nat.mod_lt nnn (by decide)) (encodeNNN_toNat _ _) rfl⟩

theorem jmpv0 (nnn : Nat) : Statement (.jmpv0 nnn) :=
  ⟨⟨"JMPV0", 0xB000, 0xF000⟩, by decide, rfl, selects_class _ 0xB#4 _ _ _ (Nat.mod_lt nnn (by decide)) (encodeNNN_toNat _ _) rfl⟩

theorem rand (x : Reg) (nn : Byte) : Statement (.rand x nn) :=
  ⟨⟨"RAND", 0xC000, 0xF000⟩, by decide, rfl, selects_class _ 0xC#4 _ _ (x.val * 256 + nn.toNat) (by omega) (by rw [encode, encodeXNN_toNat]; omega) rfl⟩

theorem draw (x y : Reg) (n : Nat) : Statement (.draw x y n) :=
  ⟨⟨"DRAW", 0xD000, 0xF000⟩, by decide, rfl, selects_class _ 0xD#4 _ _ (x.val * 256 + y.val * 16 + (BitVec.ofNat 4 n).toNat) (by omega)
    (by rw [encode, encodeXY_toNat]; omega) rfl⟩

theorem skkey (x : Reg) : Statement (.skkey x) :=
  ⟨⟨"SKKEY", 0xE09E, 0xF0FF⟩, by decide, rfl, selects_X _ 0xE#4 0x9E#8 _ x rfl⟩

theorem sknkey (x : Reg) : Statement (.sknkey x) :=
  ⟨⟨"SKNKEY", 0xE0A1, 0xF0FF⟩, by decide, rfl, selects_X _ 0xE#4 0xA1#8 _ x rfl⟩

theorem rddt (x : Reg) : Statement (.rddt x) :=
  ⟨⟨"RDDT", 0xF007, 0xF0FF⟩, by decide, rfl, selects_X _ 0xF#4 0x07#8 _ x rfl⟩

theorem waitkey (x : Reg) : Statement (.waitkey x) :=
  ⟨⟨"WAITKEY", 0xF00A, 0xF0FF⟩, by decide, rfl, selects_X _ 0xF#4 0x0A#8 _ x rfl⟩

theorem wrdt (x : Reg) : Statement (.wrdt x) :=
  ⟨⟨"WRDT", 0xF015, 0xF0FF⟩, by decide, rfl, selects_X _ 0xF#4 0x15#8 _ x rfl⟩

theorem wrst (x : Reg) : Statement (.wrst x) :=
  ⟨⟨"WRST", 0xF018, 0xF0FF⟩, by decide, rfl, selects_X _ 0xF#4 0x18#8 _ x rfl⟩

theorem addidx (x : Reg) : Statement (.addidx x) :=
  ⟨⟨"ADDIDX", 0xF01E, 0xF0FF⟩, by decide, rfl, selects_X _ 0xF#4 0x1E#8 _ x rfl⟩

theorem glyph (x : Reg) : Statement (.glyph x) :=
  ⟨⟨"GLYPH", 0xF029, 0xF0FF⟩, by decide, rfl, selects_X _ 0xF#4 0x29#8 _ x rfl⟩

theorem bcd (x : Reg) : Statement (.bcd x) :=
  ⟨⟨"BCD", 0xF033, 0xF0FF⟩, by decide, rfl, selects_X _ 0xF#4 0x33#8 _ x rfl⟩

theorem stregs (x : Reg) : Statement (.stregs x) :=
  ⟨⟨"STREGS", 0xF055, 0xF0FF⟩, by decide, rfl, selects_X _ 0xF#4 0x55#8 _ x rfl⟩

theorem ldregs (x : Reg) : Statement (.ldregs x) :=
  ⟨⟨"LDREGS", 0xF065, 0xF0FF⟩, by decide, rfl, selects_X _ 0xF#4 0x65#8 _ x rfl⟩

end Sys2Proof.Laws.EncodesInRow
end

