-- ==== Sys2Proof/Tests/Slice0.lean ====
section
/-! SUPPORT. Tests, and a witness for the hypotheses of every statement that has some. The expected results
are those of spec/95_test_vectors.md; a comment names the vector. -/

namespace Sys2Proof.Tests

-- The many small kernel checks below run one after another, not each in a thread of its own.
set_option Elab.async false

open Sys2Proof.Machine

/-! ### Helpers -/

/-- The state after Reset with bytes at 0x200. -/
def fresh (bytes : List Byte) : State :=
  State.reset.storeBytes 0x200 bytes

/-- Registers forced to values. -/
def force (s : State) (rs : List (Reg × Byte)) : State := rs.foldl (fun s r => s.setReg r.1 r.2) s

/-- The next state, if there is one. -/
def after : Result → Option State
  | .next t => some t
  | .fault _ => none
  | .refused _ => none

/-- One step, and then what is looked at. -/
def oneStep {α : Type} (s : State) (look : State → α) : Option α := (after (step s)).map look

/-- The keys of a list pressed, no other. -/
def pressed (ks : List Nat) : Vector Bool 16 := Vector.ofFn fun k : Fin 16 => ks.contains k.val

/-- A row of the framebuffer as the vectors write it: column 0 is the most significant of 64 bits. -/
def rowBits (s : State) (r : Fin 32) : Nat := s.fb[r].toList.foldl (fun n b => 2 * n + b.toNat) 0

/-- The framebuffer with one cell set. -/
def oneCell (r : Fin 32) (c : Fin 64) : Framebuffer := Framebuffer.clear.toggle r c

/-- A sprite at 0x300, `I` addressing it, an instruction at 0x200. -/
def drawing (word sprite : List Byte) (rs : List (Reg × Byte)) : State :=
  force { (fresh word).storeBytes 0x300 sprite with index := 0x300 } rs

/-- `State.reset` with events to come. -/
def scheduled (es : List Event) : State := State.reset.withSchedule es

/-! ### Ill-formed instructions (30_encoding.md R93) -/

theorem test_wellFormed_refuses_jmp : (Instr.jmp 4096).wellFormed = false := by decide
theorem test_wellFormed_refuses_call : (Instr.call 4096).wellFormed = false := by decide
theorem test_wellFormed_refuses_ldidx : (Instr.ldidx 4096).wellFormed = false := by decide
theorem test_wellFormed_refuses_jmpv0 : (Instr.jmpv0 4096).wellFormed = false := by decide
theorem test_wellFormed_refuses_draw : (Instr.draw 0 0 16).wellFormed = false := by decide

/-! ### Decoding (95_test_vectors.md part 2) -/

theorem test_decode_cls : decode 0x00E0 = some .cls := by decide
theorem test_decode_ret : decode 0x00EE = some .ret := by decide
theorem test_decode_jmp : decode 0x1ABC = some (.jmp 0xABC) := by decide
theorem test_decode_call : decode 0x2FFF = some (.call 0xFFF) := by decide
theorem test_decode_skeqi : decode 0x3A7F = some (.skeqi 10 0x7F) := by decide
theorem test_decode_sknei : decode 0x4000 = some (.sknei 0 0x00) := by decide
theorem test_decode_skeq : decode 0x5AB0 = some (.skeq 10 11) := by decide
theorem test_decode_movi : decode 0x6F01 = some (.movi 15 0x01) := by decide
theorem test_decode_addi : decode 0x7CFF = some (.addi 12 0xFF) := by decide
theorem test_decode_mov : decode 0x8AB0 = some (.mov 10 11) := by decide
theorem test_decode_or : decode 0x8AB1 = some (.or 10 11) := by decide
theorem test_decode_and : decode 0x8AB2 = some (.and 10 11) := by decide
theorem test_decode_xor : decode 0x8AB3 = some (.xor 10 11) := by decide
theorem test_decode_add : decode 0x8AB4 = some (.add 10 11) := by decide
theorem test_decode_sub : decode 0x8AB5 = some (.sub 10 11) := by decide
theorem test_decode_shr : decode 0x8AB6 = some (.shr 10) := by decide
theorem test_decode_rsub : decode 0x8AB7 = some (.rsub 10 11) := by decide
theorem test_decode_shl : decode 0x8ABE = some (.shl 10) := by decide
theorem test_decode_skne : decode 0x9AB0 = some (.skne 10 11) := by decide
theorem test_decode_ldidx : decode 0xA123 = some (.ldidx 0x123) := by decide
theorem test_decode_jmpv0 : decode 0xB123 = some (.jmpv0 0x123) := by decide
theorem test_decode_rand : decode 0xC3F0 = some (.rand 3 0xF0) := by decide
theorem test_decode_draw : decode 0xD12F = some (.draw 1 2 15) := by decide
theorem test_decode_skkey : decode 0xE59E = some (.skkey 5) := by decide
theorem test_decode_sknkey : decode 0xE5A1 = some (.sknkey 5) := by decide
theorem test_decode_rddt : decode 0xF507 = some (.rddt 5) := by decide
theorem test_decode_waitkey : decode 0xF50A = some (.waitkey 5) := by decide
theorem test_decode_wrdt : decode 0xF515 = some (.wrdt 5) := by decide
theorem test_decode_wrst : decode 0xF518 = some (.wrst 5) := by decide
theorem test_decode_addidx : decode 0xF51E = some (.addidx 5) := by decide
theorem test_decode_glyph : decode 0xF529 = some (.glyph 5) := by decide
theorem test_decode_bcd : decode 0xF533 = some (.bcd 5) := by decide
theorem test_decode_stregs : decode 0xF555 = some (.stregs 5) := by decide
theorem test_decode_ldregs : decode 0xF565 = some (.ldregs 5) := by decide

/-- The twenty unrecognised words of part 2. -/
theorem test_decode_refuses :
    ([0x0000, 0x00E1, 0x00FF, 0x0123, 0x00EF, 0x5121, 0x512F, 0x8128, 0x812D, 0x812F, 0x9ABF, 0x9121,
      0xE19F, 0xE100, 0xE1A0, 0xF100, 0xF130, 0xF175, 0xF185, 0xF1FF] : List Word).all
      (fun w => decode w == none) = true := by decide

theorem test_decodeBytes_rest :
    decodeBytes [0xD1, 0x2F, 0x77] = .ok (.draw 1 2 15, [0x77]) := by decide
theorem test_decodeBytes_truncated : decodeBytes [0xD1] = .error .truncated := by decide
theorem test_decodeTableWord : decodeTableWord 16 0xF51E = some (.addidx 5) := by decide

/-! ### The ALU (95_test_vectors.md part 3) -/

theorem test_A2_movi : oneStep (fresh [0x6F, 0x01]) (fun t => (t.reg 15, t.pc)) = some (0x01, 0x202) := by
  decide +kernel
theorem test_A3_addi : oneStep (force (fresh [0x71, 0x01]) [(1, 0xFF), (15, 0x07)])
    (fun t => (t.reg 1, t.reg 15)) = some (0x00, 0x07) := by decide +kernel
theorem test_A6_mov : oneStep (force (fresh [0x81, 0x20]) [(2, 0x7E)])
    (fun t => (t.reg 1, t.reg 2)) = some (0x7E, 0x7E) := by decide +kernel
theorem test_A7_or : oneStep (force (fresh [0x81, 0x21]) [(1, 0xF0), (2, 0x0C), (15, 0x01)])
    (fun t => (t.reg 1, t.reg 15)) = some (0xFC, 0x01) := by decide +kernel
theorem test_A8_and : oneStep (force (fresh [0x81, 0x22]) [(1, 0xF0), (2, 0x3C)])
    (fun t => t.reg 1) = some 0x30 := by decide +kernel
theorem test_A10_xor : oneStep (force (fresh [0x81, 0x13]) [(1, 0x5A), (15, 0x01)])
    (fun t => (t.reg 1, t.reg 15)) = some (0x00, 0x01) := by decide +kernel
theorem test_A14_add : oneStep (force (fresh [0x81, 0x24]) [(1, 0xC8), (2, 0x64)])
    (fun t => (t.reg 1, t.reg 15)) = some (0x2C, 0x01) := by decide +kernel
theorem test_A16_add_to_flag : oneStep (force (fresh [0x8F, 0x24]) [(15, 0xF0), (2, 0x20)])
    (fun t => t.reg 15) = some 0x01 := by decide +kernel
theorem test_A20_sub_equal : oneStep (force (fresh [0x81, 0x25]) [(1, 0x05), (2, 0x05)])
    (fun t => (t.reg 1, t.reg 15)) = some (0x00, 0x01) := by decide +kernel
theorem test_A22_sub_borrow : oneStep (force (fresh [0x81, 0x25]) [(1, 0x05), (2, 0x07)])
    (fun t => (t.reg 1, t.reg 15)) = some (0xFE, 0x00) := by decide +kernel
theorem test_A26_rsub : oneStep (force (fresh [0x81, 0x27]) [(1, 0x05), (2, 0x07)])
    (fun t => (t.reg 1, t.reg 15)) = some (0x02, 0x01) := by decide +kernel
theorem test_A27_rsub_borrow : oneStep (force (fresh [0x81, 0x27]) [(1, 0x07), (2, 0x05)])
    (fun t => (t.reg 1, t.reg 15)) = some (0xFE, 0x00) := by decide +kernel
theorem test_A33_shr_ignores_y : oneStep (force (fresh [0x81, 0x76]) [(1, 0xFE), (7, 0xFF)])
    (fun t => (t.reg 1, t.reg 7, t.reg 15)) = some (0x7F, 0xFF, 0x00) := by decide +kernel
theorem test_A34_shr_of_flag : oneStep (force (fresh [0x8F, 0x06]) [(15, 0x03)])
    (fun t => t.reg 15) = some 0x01 := by decide +kernel
theorem test_A38_shl : oneStep (force (fresh [0x81, 0x0E]) [(1, 0x81)])
    (fun t => (t.reg 1, t.reg 15)) = some (0x02, 0x01) := by decide +kernel
theorem test_A39_shl_of_flag : oneStep (force (fresh [0x8F, 0x0E]) [(15, 0x81)])
    (fun t => t.reg 15) = some 0x01 := by decide +kernel
/-- Vector A41: whatever the random byte is. -/
theorem test_A41_rand : oneStep (force (fresh [0xC1, 0x00]) [(1, 0x55)]) (fun t => t.reg 1) = some 0x00 := by
  have h : oneStep (force (fresh [0xC1, 0x00]) [(1, 0x55)]) (fun t => t.reg 1)
      = some (Config.rnd 0 &&& 0x00) := by rfl
  rw [h]; simp

/-! ### Control transfer (95_test_vectors.md part 4) -/

theorem test_C1_jmp : oneStep (fresh [0x12, 0x34]) (fun t => t.pc) = some 0x234 := by decide +kernel
theorem test_C4_call : oneStep (fresh [0x23, 0x00]) (fun t => (t.stackEntry 0, t.sp, t.pc))
    = some (0x202, 1, 0x300) := by decide +kernel
/-- Vector C6 at its last Step: capacity 16, sixteen entries in use. -/
theorem test_C6_call_overflows : (after (callWithCapacity 16 0x200
    { fresh [0x22, 0x00] with sp := 16 })).map (fun t => (t.fault, t.sp, t.pc))
    = some (some .stackOverflow, 16, 0x200) := by decide +kernel
theorem test_C5_ret_underflows : oneStep (fresh [0x00, 0xEE]) (fun t => (t.fault, t.pc, t.sp))
    = some (some .stackUnderflow, 0x200, 0) := by decide +kernel
/-- Vector C22 at its second Step. -/
theorem test_C22_ret : oneStep ((({ fresh [0x00, 0xEE] with pc := 0 }).push 0x1000).setPc 0x200)
    (fun t => (t.pc, t.sp, t.stackEntry 0)) = some (0x1000, 0, 0x1000) := by decide +kernel
theorem test_C8_skeqi : oneStep (force (fresh [0x33, 0x2A]) [(3, 0x2A)]) (fun t => t.pc) = some 0x204 := by
  decide +kernel
theorem test_C9_skeqi : oneStep (force (fresh [0x33, 0x2B]) [(3, 0x2A)]) (fun t => t.pc) = some 0x202 := by
  decide +kernel
theorem test_C10_sknei : oneStep (force (fresh [0x43, 0x2A]) [(3, 0x2A)]) (fun t => t.pc) = some 0x202 := by
  decide +kernel
theorem test_C11_sknei : oneStep (force (fresh [0x43, 0x00]) [(3, 0x2A)]) (fun t => t.pc) = some 0x204 := by
  decide +kernel
theorem test_C12_skeq : oneStep (force (fresh [0x51, 0x20]) [(1, 0x07), (2, 0x07)])
    (fun t => t.pc) = some 0x204 := by decide +kernel
theorem test_C13_skeq : oneStep (force (fresh [0x51, 0x20]) [(1, 0x07), (2, 0x08)])
    (fun t => t.pc) = some 0x202 := by decide +kernel
theorem test_C15_skne : oneStep (force (fresh [0x91, 0x20]) [(1, 0x07), (2, 0x08)])
    (fun t => t.pc) = some 0x204 := by decide +kernel
theorem test_C16_skne : oneStep (force (fresh [0x91, 0x20]) [(1, 0x07), (2, 0x07)])
    (fun t => t.pc) = some 0x202 := by decide +kernel
theorem test_C19_jmpv0 : oneStep (force (fresh [0xB3, 0x00]) [(0, 0x04)]) (fun t => t.pc) = some 0x304 := by
  decide +kernel
theorem test_C20_jmpv0 : oneStep (force (fresh [0xBF, 0xFF]) [(0, 0xFF)]) (fun t => t.pc) = some 0x10FE := by
  decide +kernel

/-! ### Fetch and unrecognised words (95_test_vectors.md parts 2, 4) -/

theorem test_C24_fetch_at_the_top : oneStep { State.reset with pc := 0xFFF } (fun t => (t.fault, t.pc))
    = some (some (.memoryOutOfRange 4096), 0xFFF) := by decide +kernel
theorem test_C25_fetch_does_not_wrap : oneStep { State.reset with pc := 0xFFFF } (fun t => (t.fault, t.pc))
    = some (some (.memoryOutOfRange 65535), 0xFFFF) := by decide +kernel
theorem test_unknown_word : oneStep (fresh [0x81, 0x28]) (fun t => (t.fault, t.pc))
    = some (some (.unknownInstruction 0x8128), 0x200) := by decide +kernel
theorem test_halted_step : oneStep ((fresh [0x6A, 0x5C]).setFault .stackUnderflow) (fun t => (t.reg 10, t.pc))
    = some (0x00, 0x200) := by decide +kernel

/-! ### Index and memory (95_test_vectors.md part 5) -/

theorem test_M2_ldidx : oneStep { fresh [0xAF, 0xFF] with index := 0xFFFF } (fun t => t.index)
    = some 0x0FFF := by decide +kernel
theorem test_M7_addidx_wraps : oneStep (force { fresh [0xF2, 0x1E] with index := 0xFFFF } [(2, 0x02)])
    (fun t => (t.index, t.reg 15)) = some (0x0001, 0x01) := by decide +kernel
theorem test_M8_addidx_of_flag : oneStep (force { fresh [0xFF, 0x1E] with index := 0x0FFE } [(15, 0x01)])
    (fun t => (t.index, t.reg 15)) = some (0x0FFF, 0x00) := by decide +kernel
theorem test_M13_glyph : oneStep (force (fresh [0xF4, 0x29]) [(4, 0xFF)]) (fun t => t.index)
    = some 0x04FB := by decide +kernel
theorem test_M20_bcd : oneStep (force { fresh [0xF3, 0x33] with index := 4093 } [(3, 0x7B)])
    (fun t => (t.byteAt 4093, t.byteAt 4094, t.byteAt 4095, t.fault)) = some (1, 2, 3, none) := by
  decide +kernel
theorem test_M21_bcd_raises : oneStep (force { fresh [0xF3, 0x33] with index := 4094 } [(3, 0x7B)])
    (fun t => (t.fault, t.byteAt 4094, t.pc)) = some (some (.memoryOutOfRange 4096), 0, 0x200) := by
  decide +kernel
theorem test_M23_stregs : oneStep
    (force { fresh [0xF2, 0x55] with index := 0x400 } [(0, 0x11), (1, 0x22), (2, 0x33)])
    (fun t => (t.mem.readBytes t.font 0x400 4, t.index)) = some ([0x11, 0x22, 0x33, 0x00], 0x400) := by
  decide +kernel
theorem test_M31_stregs_over_the_font : oneStep (fresh [0xF0, 0x55]) (fun t => t.byteAt 0)
    = some 0x00 := by decide +kernel
theorem test_M27_ldregs : oneStep
    { (fresh [0xF2, 0x65]).storeBytes 0x400 [1, 2, 3, 4] with index := 0x400 }
    (fun t => (t.reg 0, t.reg 1, t.reg 2, t.reg 3)) = some (1, 2, 3, 0) := by decide +kernel
theorem test_M29_ldregs_raises : oneStep { fresh [0xF2, 0x65] with index := 0xFFE }
    (fun t => (t.fault, t.reg 0)) = some (some (.memoryOutOfRange 4096), 0) := by decide +kernel

/-! ### Display (95_test_vectors.md part 6) -/

theorem test_DR3_draw_wraps : oneStep
    { drawing [0xD0, 0x12] [0xFF, 0xFF] [(0, 60), (1, 31)] with wrap := true }
    (fun t => (rowBits t 31, rowBits t 0, t.reg 15)) = some (0xF00000000000000F, 0xF00000000000000F, 0x00) := by
  decide +kernel
/-- Vector DR15, with X = 15, a collision and a clear cell. -/
theorem test_DR15_draw_samples_first : oneStep
    { drawing [0xDF, 0x11] [0xC0] [(15, 0x09), (1, 0x01)] with fb := oneCell 1 10 }
    (fun t => (rowBits t 1, t.reg 15, t.redraw)) = some (0x0040000000000000, 0x01, true) := by
  decide +kernel
theorem test_DR20_cls : oneStep (force { fresh [0x00, 0xE0] with fb := oneCell 3 7 } [(15, 0x01)])
    (fun t => (t.fb, t.redraw, t.reg 15)) = some (Framebuffer.clear, true, 0x01) := by decide +kernel

/-! ### Keypad and timers (95_test_vectors.md parts 7, 8) -/

theorem test_K8_skkey_raises : oneStep (force (fresh [0xE0, 0x9E]) [(0, 0x10)]) (fun t => (t.fault, t.pc))
    = some (some (.keyIndexOutOfRange 16), 0x200) := by decide +kernel
theorem test_K10_skkey : oneStep (force { fresh [0xE0, 0x9E] with keys := pressed [15] } [(0, 0x0F)])
    (fun t => t.pc) = some 0x204 := by decide +kernel
theorem test_K3_sknkey : oneStep (force { fresh [0xE2, 0xA1] with keys := pressed [10] } [(2, 0x0A)])
    (fun t => t.pc) = some 0x202 := by decide +kernel
theorem test_K4_sknkey : oneStep (force (fresh [0xE2, 0xA1]) [(2, 0x0A)]) (fun t => t.pc) = some 0x204 := by
  decide +kernel
theorem test_K5_waitkey_waits : step (fresh [0xF3, 0x0A]) = .next (fresh [0xF3, 0x0A]) := by rfl
theorem test_K6_waitkey : oneStep { fresh [0xF3, 0x0A] with keys := pressed [3, 9] }
    (fun t => (t.reg 3, t.pc)) = some (0x09, 0x202) := by decide +kernel
theorem test_K11_rddt : oneStep { fresh [0xF5, 0x07] with dt := 0x3C } (fun t => (t.reg 5, t.dt))
    = some (0x3C, 0x3C) := by decide +kernel
theorem test_K12_wrdt : oneStep (force (fresh [0xF5, 0x15]) [(5, 0x3C)]) (fun t => (t.dt, t.st, t.sndchg))
    = some (0x3C, 0x00, false) := by decide +kernel
theorem test_K14_wrst : oneStep (fresh [0xF6, 0x18]) (fun t => (t.st, t.sndchg)) = some (0x00, true) := by
  decide +kernel

/-- Vectors T3, T5 and T6. -/
theorem test_T3_timerAdvance :
    (fun t => (t.dt, t.st, t.acc)) (timerAdvanceWith 1000 5000 400 { State.reset with dt := 5, st := 1, acc := 800 })
      = (4, 0, 200) := by decide +kernel
theorem test_T6_timerAdvance_capped :
    (fun t => (t.dt, t.st, t.acc)) (timerAdvanceWith 1000 5000 999999 { State.reset with dt := 2, acc := 800 })
      = (0, 0, 800) := by decide +kernel

/-! ### The host's events (95_test_vectors.md S1, S7; 60_exceptions.md R255) -/

/-- S7 with a short image and with no image at all (70_reset_and_hazards.md R284). -/
theorem test_loadImage : oneStep { State.reset with schedule := [.loadImage [0xAB, 0xCD]] }
    (fun t => (t.reply, t.mem.readBytes t.font 0x1FF 4, t.pc)) = some (.loaded, [0x00, 0xAB, 0xCD, 0x00], 0x200) := by
  decide +kernel
theorem test_reset_event : oneStep
    { fresh [0x12, 0x00] with schedule := [.reset], wrap := true, sp := 3, fault := some .stackOverflow }
    (fun t => (t.mem, t.wrap, t.sp, t.fault)) = some ([], true, 0, none) := by decide +kernel
/-- R40 with a font that is not the recommended one. -/
theorem test_reset_event_any_font : oneStep
    { scheduled [.reset] with font := Vector.replicate 80 0x3C, mem := [(5, 0x11), (600, 0x22)] }
    (fun t => (t.byteAt 0, t.byteAt 5, t.byteAt 79, t.byteAt 80, t.byteAt 600))
    = some (0x3C, 0x3C, 0x3C, 0x00, 0x00) := by decide +kernel
theorem test_consumeRedraw : oneStep { State.reset with schedule := [.consumeRedraw], redraw := true }
    (fun t => (t.reply, t.redraw)) = some (.flag true, false) := by decide +kernel
/-- The first step from reset with nothing placed (30_encoding.md R99: 0x0000 is unrecognised; log 13). -/
theorem test_reset_step : oneStep State.reset (fun t => t.fault) = some (some (.unknownInstruction 0x0000)) := by
  decide +kernel
theorem test_withFetchWord : oneStep (State.reset.withFetchWord 16 0x6A5C) (fun t => (t.reg 10, t.pc))
    = some (0x5C, 0x202) := by decide +kernel

/-! ### Witnesses

For each statement with hypotheses, states and operands that meet them all, clause by clause, at the ends of
the ranges. -/

theorem witness_DecodeOfEncode : (Instr.jmp 4095).wellFormed = true ∧ (Instr.draw 15 15 15).wellFormed = true ∧
    (Instr.shr 15).wellFormed = true := by decide
theorem witness_EncodeOfDecode : decode 0x6A5C = some (.movi 10 0x5C) ∧ decode 0x8AB6 = some (.shr 10) ∧
    decode 0x8ABE = some (.shl 10) := by decide
theorem witness_DecodeSelects : (⟨"SHL", 0x800E, 0xF00F⟩ : OpcodeRow) ∈ opcodeMap ∧
    (⟨"SHL", 0x800E, 0xF00F⟩ : OpcodeRow).selects 0x8ABE = true := by decide
theorem witness_OnlyShifts : decode 0x5AB0 = some (.skeq 10 11) ∧ ∀ x, Instr.skeq 10 11 ≠ .shr x ∧
    Instr.skeq 10 11 ≠ .shl x := by decide

/-- `State.reset` with another program counter. -/
def atPc (pc : Word) : State := { State.reset with pc := pc }

/-- `State.reset` with another index register. -/
def atIndex (i : Word) : State := { State.reset with index := i }

/-- `State.reset` with `SP` entries in use. -/
def deep (sp : Nat) : State := { State.reset with sp := sp }

/-- With nothing scheduled and Steps only to come, a Step is next and taking it changes nothing. -/
theorem step_comesNext (s : State) (h : s.schedule = [] ∧ s.environment = .stepsOnly) : s.comesNext .step s :=
  .inr (.inl ⟨h.1, h.2, rfl, rfl⟩)

/-- The event scheduled first comes next, whatever stands after it and in the environment. -/
theorem scheduled_comesNext (s : State) (e : Event) (rest : List Event) :
    (s.withSchedule (e :: rest)).comesNext e (s.withSchedule rest) := .inl ⟨rest, rfl, rfl⟩

/-- With nothing scheduled, a host left free gives its next event. -/
theorem free_comesNext (s : State) (n : Nat) (h : s.schedule = []) :
    (s.withEnvironment (.free n)).comesNext (Config.hostEvent n) (s.withEnvironment (.free (n + 1))) :=
  .inr (.inr ⟨n, h, rfl, rfl, rfl⟩)

/-- With Steps only to come, a `running` state is one whose fields say so. -/
theorem running_of (s : State)
    (h : s.lifecycle = .ready ∧ s.fault = none ∧ s.schedule = [] ∧ s.environment = .stepsOnly) : s.running s :=
  ⟨h.1, h.2.1, step_comesNext s h.2.2⟩

/-- With a Step scheduled, and a Tick after it, so is one whose two other fields say so. -/
theorem running_scheduled (s : State) (h : s.lifecycle = .ready ∧ s.fault = none) :
    (s.withSchedule [.step, .tick]).running (s.withSchedule [.tick]) := ⟨h.1, h.2, scheduled_comesNext s _ _⟩

theorem witness_Fetch_in_range : (atPc 0).pc.toNat ≤ 4094 ∧ (atPc 0xFFE).pc.toNat ≤ 4094 := by decide
theorem witness_Fetch_last_byte : (atPc 0xFFF).running (atPc 0xFFF) ∧ (atPc 0xFFF).pc.toNat = 4095 :=
  ⟨running_of _ (by decide), by decide⟩
theorem witness_Fetch_outside : (atPc 0x1000).running (atPc 0x1000) ∧ 4096 ≤ (atPc 0x1000).pc.toNat ∧
    (atPc 0xFFFF).running (atPc 0xFFFF) ∧ 4096 ≤ (atPc 0xFFFF).pc.toNat :=
  ⟨running_of _ (by decide), by decide, running_of _ (by decide), by decide⟩
theorem witness_StepRuns : (fresh [0x6A, 0x5C]).running (fresh [0x6A, 0x5C]) ∧
    (fresh [0x6A, 0x5C]).pc.toNat + 1 < 4096 ∧
    decode (wordOfBytes ((fresh [0x6A, 0x5C]).byteAt (fresh [0x6A, 0x5C]).pc.toNat)
      ((fresh [0x6A, 0x5C]).byteAt ((fresh [0x6A, 0x5C]).pc.toNat + 1))) = some (.movi 10 0x5C) :=
  ⟨running_of _ (by decide), by decide, by decide +kernel⟩
/-- The same with the Step scheduled. -/
theorem witness_StepRuns_scheduled :
    ((fresh [0x6A, 0x5C]).withSchedule [.step, .tick]).running ((fresh [0x6A, 0x5C]).withSchedule [.tick]) ∧
    step ((fresh [0x6A, 0x5C]).withSchedule [.step, .tick])
      = exec (.movi 10 0x5C) ((fresh [0x6A, 0x5C]).withSchedule [.tick]) :=
  ⟨running_scheduled _ (by decide), by rfl⟩
theorem witness_UnrecognisedWordHalts : State.reset.running State.reset ∧ fetch State.reset = .ok 0x0000 ∧
    decode 0x0000 = none := ⟨running_of _ (by decide), by decide +kernel, by decide⟩

/-- A halted state with events to come. -/
def haltedWith (es : List Event) : State := (scheduled es).setFault .stackUnderflow

theorem witness_Halted : (haltedWith []).halted ∧ (haltedWith []).lifecycle = .ready ∧
    (haltedWith [.step]).halted ∧ (haltedWith [.step]).lifecycle = .ready :=
  ⟨by simp [State.halted, haltedWith], by decide, by simp [State.halted, haltedWith], by decide⟩
theorem witness_Halted_step : (haltedWith []).comesNext .step (haltedWith []) ∧
    (haltedWith [.step]).comesNext .step (haltedWith []) :=
  ⟨step_comesNext _ (by decide), scheduled_comesNext (haltedWith []) _ _⟩
theorem witness_Halted_timerAdvance : (haltedWith [.timerAdvance 7]).comesNext (.timerAdvance 7) (haltedWith []) :=
  scheduled_comesNext (haltedWith []) _ _
theorem witness_Halted_setKeys :
    (haltedWith [.setKeys (pressed [15])]).comesNext (.setKeys (pressed [15])) (haltedWith []) :=
  scheduled_comesNext (haltedWith []) _ _

theorem witness_ConditionsArePrecise : (fresh [0x00, 0xEE]).running (fresh [0x00, 0xEE]) ∧
    step (fresh [0x00, 0xEE]) = .next ((fresh [0x00, 0xEE]).setFault .stackUnderflow) ∧
    ((fresh [0x00, 0xEE]).setFault .stackUnderflow).fault ≠ none :=
  ⟨running_of _ (by decide), by rfl, by decide⟩
theorem witness_EachInstruction : State.reset.fault = none ∧
    exec .ret State.reset = .next (State.reset.setFault .stackUnderflow) ∧
    (State.reset.setFault .stackUnderflow).fault = some .stackUnderflow := ⟨by decide, by rfl, by decide⟩
theorem witness_InstructionsWrite : exec (.jmp 0x300) State.reset = .next (State.reset.setPc 0x300) := by rfl
theorem witness_OnlyFlagWriters : exec (.movi 14 7) State.reset = .next (State.reset.setReg 14 7).nextInstr ∧
    mayWriteVF (.movi 14 7) = false := ⟨by rfl, by decide⟩

/-- `State.reset` with other values in the four elements that no instruction reads. -/
def disturbed : State := { State.reset with st := 9, acc := 3, redraw := true, sndchg := true }

theorem witness_Unread : disturbed = { State.reset with
      st := disturbed.st, acc := disturbed.acc, redraw := disturbed.redraw, sndchg := disturbed.sndchg } ∧
    exec (.jmp 0x300) State.reset = .next (State.reset.setPc 0x300) := ⟨by rfl, by rfl⟩

theorem witness_nnn : 0 < 4096 ∧ 4095 < 4096 := by decide
theorem witness_Call_room : (deep 0).sp < Config.stackCapacity ∧ (deep 15).sp < Config.stackCapacity :=
  ⟨by simp [deep, Config.stackCapacity], by simp [deep, Config.stackCapacity]⟩
theorem witness_Call_last : (deep (Config.stackCapacity - 1)).sp < Config.stackCapacity := by
  simp [deep, Config.stackCapacity]
theorem witness_Call_full : (deep Config.stackCapacity).sp = Config.stackCapacity := rfl
theorem witness_Ret_entry : (deep 1).sp ≤ Config.stackCapacity ∧ 0 < (deep 1).sp ∧
    (deep Config.stackCapacity).sp ≤ Config.stackCapacity ∧ 0 < (deep Config.stackCapacity).sp :=
  ⟨by simp [deep, Config.stackCapacity], by simp [deep], Nat.le_refl _,
    by simp [deep, Config.stackCapacity]⟩
theorem witness_Ret_empty : (deep 0).sp ≤ Config.stackCapacity ∧ (deep 0).sp = 0 :=
  ⟨by simp [deep], rfl⟩

/-- The hypothesis inside the conclusions of the flag-writing instructions. -/
theorem witness_not_VF : (0 : Reg) ≠ 15 ∧ (14 : Reg) ≠ 15 := by decide

theorem witness_Bcd : (atIndex 4093).memWf ∧ (atIndex 4093).base + 2 < 4096 ∧
    (atIndex 4094).memWf ∧ 4096 ≤ (atIndex 4094).base + 2 := by decide
theorem witness_Bcd_far : 4096 ≤ (atIndex 0xFFFF).base + 2 := by decide
theorem witness_Stregs : (atIndex 4095).memWf ∧ (atIndex 4095).base + (0 : Reg).val < 4096 ∧
    4096 ≤ (atIndex 4095).base + (1 : Reg).val ∧ (atIndex 4080).base + (15 : Reg).val < 4096 ∧
    4096 ≤ (atIndex 4081).base + (15 : Reg).val := by decide
theorem witness_Ldregs : (atIndex 4095).base + (0 : Reg).val < 4096 ∧
    4096 ≤ (atIndex 4095).base + (1 : Reg).val := by decide
theorem witness_LdregsUndoes : (atIndex 4080).memWf ∧ (atIndex 4080).base + (15 : Reg).val < 4096 ∧
    ∃ t, exec (.stregs 15) (atIndex 4080) = .next t := ⟨by decide, by decide, _, rfl⟩

/-- A program that stores two bytes just after itself. -/
def selfModifying : State := { fresh [0xF1, 0x55] with index := 0x202 }

theorem witness_StoredBytes : selfModifying.memWf ∧ selfModifying.running selfModifying ∧ 1 ≤ (1 : Reg).val ∧
    decode (wordOfBytes (selfModifying.byteAt selfModifying.pc.toNat)
      (selfModifying.byteAt (selfModifying.pc.toNat + 1))) = some (.stregs 1) ∧
    selfModifying.base = selfModifying.pc.toNat + 2 ∧ selfModifying.base + (1 : Reg).val < 4096 :=
  ⟨by decide +kernel, running_of _ (by decide), by decide, by decide +kernel, by decide, by decide⟩

/-- Two memories written in two orders. -/
def writtenUp : Memory := (Memory.write recommendedFont [] 600 1).write recommendedFont 601 2
def writtenDown : Memory := (Memory.write recommendedFont [] 601 2).write recommendedFont 600 1

theorem witness_Canonical : writtenUp.wf recommendedFont ∧ writtenDown.wf recommendedFont ∧
    ∀ a, a < 4096 → writtenUp.read recommendedFont a = writtenDown.read recommendedFont a :=
  ⟨by decide +kernel, by decide +kernel, fun a _ => by
    rw [show writtenUp = writtenDown from by decide +kernel]⟩

theorem witness_Draw_in_range : 15 < 16 ∧ ((0 = 0) ∨ (atIndex 0xFFFF).base + 0 - 1 < 4096) ∧
    (atIndex 4081).base + 15 - 1 < 4096 := by decide
theorem witness_Draw_outside : 0 < 15 ∧ 4096 ≤ (atIndex 4082).base + 15 - 1 := by decide

/-- A sprite of one row, 0x80, drawn at column 63, row 31. -/
def corner : State := drawing [] [0x80] [(0, 63), (1, 31)]

theorem corner_covers : corner.covers 0 1 1 31 63 :=
  ⟨0, by decide, 0, by decide, by decide +kernel, by
    rw [landsOn, if_pos (by decide +kernel)]; decide +kernel⟩
theorem witness_Draw_covered : corner.covers 0 1 1 31 63 ∧
    { corner with fb := oneCell 31 63 }.covers 0 1 1 31 63 ∧
    { corner with fb := oneCell 31 63 }.fb.cell 31 63 = true :=
  ⟨corner_covers, corner_covers, by decide +kernel⟩
theorem witness_Draw_no_collision : ∀ r c, corner.covers 0 1 1 r c → corner.fb.cell r c = false := by
  intro r c _
  have h : corner.fb = Framebuffer.clear := by rfl
  simp [h, Framebuffer.cell, Framebuffer.clear]
theorem witness_Draw_uncovered : ¬ (atIndex 0x300).covers 0 1 0 0 0 := by
  rintro ⟨row, h, _⟩; omega
theorem witness_DrawTwice : 15 < 16 ∧ (0 : Reg) ≠ 15 ∧ (14 : Reg) ≠ 15 ∧ (atIndex 4081).base + 15 ≤ 4096 := by
  decide
theorem witness_Clipped : State.reset.wrap = false ∧
    64 ≤ ((force State.reset [(0, 64)]).reg 0).toNat ∧ 32 ≤ ((force State.reset [(1, 32)]).reg 1).toNat ∧
    State.reset.base + 15 - 1 < 4096 := by decide +kernel

theorem witness_Key_valid : ((force State.reset [(0, 15)]).reg 0).toNat = (15 : Fin 16).val := by decide +kernel
theorem witness_Key_outside : 15 < ((force State.reset [(0, 16)]).reg 0).toNat := by decide +kernel
theorem witness_Waitkey_none : ∀ k : Fin 16, State.reset.keys[k] = false := by decide +kernel
theorem witness_Waitkey_highest : (pressed [3, 9])[(9 : Fin 16)] = true ∧
    (∀ j : Fin 16, 9 < j → (pressed [3, 9])[j] = false) ∧ (pressed [15])[(15 : Fin 16)] = true ∧
    (∀ j : Fin 16, 15 < j → (pressed [15])[j] = false) := by decide +kernel

theorem witness_TimerAdvance_period : 0 < 1 ∧ 0 < Config.period := ⟨by decide, by simp [Config.period]⟩
theorem witness_TimerAdvance_step : (scheduled [.timerAdvance 7]).lifecycle ≠ .constructed ∧
    (scheduled [.timerAdvance 7]).comesNext (.timerAdvance 7) (scheduled []) ∧
    (haltedWith [.timerAdvance 7, .step]).lifecycle ≠ .constructed ∧
    (haltedWith [.timerAdvance 7, .step]).comesNext (.timerAdvance 7) (haltedWith [.step]) :=
  ⟨by decide, scheduled_comesNext State.reset _ _, by decide, scheduled_comesNext (haltedWith []) _ _⟩
theorem witness_Ticks : State.reset.lifecycle = .ready := rfl
theorem witness_ResetEvent : (scheduled [.reset]).comesNext .reset (scheduled []) ∧
    { haltedWith [.reset, .step] with lifecycle := .constructed }.comesNext .reset
      { haltedWith [.step] with lifecycle := .constructed } :=
  ⟨scheduled_comesNext State.reset _ _, scheduled_comesNext { haltedWith [] with lifecycle := .constructed } _ _⟩

/-- The longest image that fits, and one byte more (70_reset_and_hazards.md R284). -/
theorem witness_LoadImage : State.reset.memWf ∧ State.reset.lifecycle ≠ .constructed ∧
    (scheduled [.loadImage (List.replicate 3584 0xAB)]).comesNext (.loadImage (List.replicate 3584 0xAB))
      (scheduled []) ∧
    (List.replicate 3584 (0xAB : Byte)).length ≤ 3584 ∧ 3584 < (List.replicate 3585 (0xAB : Byte)).length ∧
    ([] : List Byte).length ≤ 3584 :=
  ⟨by decide, by decide, scheduled_comesNext State.reset _ _, List.length_replicate.le,
    List.length_replicate.ge, Nat.zero_le _⟩
theorem witness_SetKeys : (scheduled [.setKeys (pressed [0])]).lifecycle ≠ .constructed ∧
    (scheduled [.setKeys (pressed [0])]).comesNext (.setKeys (pressed [0])) (scheduled []) :=
  ⟨by decide, scheduled_comesNext State.reset _ _⟩
theorem witness_SetWrapPolicy :
    (scheduled [.setWrapPolicy true]).comesNext (.setWrapPolicy true) (scheduled []) :=
  scheduled_comesNext State.reset _ _
theorem witness_Consume : (scheduled [.consumeRedraw]).lifecycle ≠ .constructed ∧
    (scheduled [.consumeRedraw]).comesNext .consumeRedraw (scheduled []) ∧
    (scheduled [.consumeSoundChanged]).lifecycle ≠ .constructed ∧
    (scheduled [.consumeSoundChanged]).comesNext .consumeSoundChanged (scheduled []) :=
  ⟨by decide, scheduled_comesNext State.reset _ _, by decide, scheduled_comesNext State.reset _ _⟩
theorem witness_Refused_before_reset :
    step { State.reset with lifecycle := .constructed } = .refused .beforeFirstReset := by rfl
theorem witness_Refused_after_failed_load :
    step { State.reset with lifecycle := .loadFailed } = .refused .afterFailedLoad ∧
    step { scheduled [.step] with lifecycle := .loadFailed } = .refused .afterFailedLoad := ⟨by rfl, by rfl⟩
theorem witness_Parked : (fresh [0x12, 0x00]).running (fresh [0x12, 0x00]) ∧ (fresh [0x12, 0x00]).parked :=
  ⟨running_of _ (by decide), by decide, by decide +kernel⟩
theorem witness_Inv : State.reset.Inv ∧ ∃ t, step State.reset = .next t :=
  ⟨⟨Nat.zero_le _, by simp [State.reset, Config.period], by decide⟩, _, rfl⟩
theorem witness_NoStepWritesTheFont : ∃ t, step State.reset = .next t := ⟨_, rfl⟩
theorem witness_FaultStays : (haltedWith []).fault = some .stackUnderflow ∧
    (∀ u, ¬ (haltedWith []).comesNext .reset u) ∧ step (haltedWith []) = .next (haltedWith []) := by
  refine ⟨rfl, ?_, rfl⟩
  rintro u (⟨_, h, -⟩ | ⟨-, -, h, -⟩ | ⟨_, -, h, -⟩) <;> cases h

/-- A host left free, with nothing scheduled. -/
def freeHost : State := State.reset.withEnvironment (.free 0)

/-- Whatever a free host issues first, the machine answers a next state, and the host stays free. -/
theorem freeHost_goes_on : ∃ t, Host.Core.run Sys2Proof.core 1 freeHost = .next t := by
  suffices ∃ t, step freeHost = .next t by
    obtain ⟨t, ht⟩ := this
    exact ⟨t, by simp only [Host.Core.run, Sys2Proof.core]; rw [ht]⟩
  change ∃ t, runEvent (Config.hostEvent 0) (State.reset.withEnvironment (.free 1)) = .next t
  cases Config.hostEvent 0 <;> exact ⟨_, rfl⟩
theorem witness_HostEvents : freeHost.schedule = [] ∧ freeHost.environment = .free 0 ∧
    freeHost.comesNext (Config.hostEvent 0) (State.reset.withEnvironment (.free 1)) ∧
    ∃ t, Host.Core.run Sys2Proof.core 1 freeHost = .next t :=
  ⟨rfl, rfl, free_comesNext State.reset 0 rfl, freeHost_goes_on⟩

end Sys2Proof.Tests
end

section
/-! SUPPORT. What an instruction can do to the state: it ends in a state reached by named updates of
Machine/Ops.lean, each of which writes parts that the instruction lists (10_state.md R41). The frame of an
instruction and the invariants it keeps are read off its updates. -/

namespace Sys2Proof.Machine

/-! ### The frame of each update -/

theorem frame_setReg (s : State) (x : Reg) (b : Byte) : unchangedExcept [.reg x] s (s.setReg x b) := by
  intro p hp; cases p <;> simp_all [Part.same, State.stackEntry, State.reg_setReg]

theorem frame_loadRegs (s : State) (x : Reg) :
    unchangedExcept (regsUpTo x) s (s.setRegs (s.loadedRegs x)) := by
  intro p hp
  cases p <;> simp_all [Part.same, State.stackEntry, State.reg_setRegs_loadedRegs, regsUpTo]

theorem frame_setIndex (s : State) (w : Word) : unchangedExcept [.index] s (s.setIndex w) := by
  intro p hp; cases p <;> simp_all [Part.same, State.stackEntry]

theorem frame_setPc (s : State) (w : Word) : unchangedExcept [.pc] s (s.setPc w) := by
  intro p hp; cases p <;> simp_all [Part.same, State.stackEntry]

theorem frame_push (s : State) (w : Word) : unchangedExcept [.stack] s (s.push w) := by
  intro p hp; cases p <;> simp_all [Part.same]

theorem frame_pop (s : State) : unchangedExcept [.stack] s s.pop := by
  intro p hp; cases p <;> simp_all [Part.same]

theorem frame_setDelay (s : State) (b : Byte) : unchangedExcept [.delay] s (s.setDelay b) := by
  intro p hp; cases p <;> simp_all [Part.same, State.stackEntry]

theorem frame_setSound (s : State) (b : Byte) :
    unchangedExcept [.sound, .soundChanged] s (s.setSound b) := by
  intro p hp; cases p <;> simp_all [Part.same, State.stackEntry]

theorem frame_display (s : State) (fb : Framebuffer) :
    unchangedExcept [.framebuffer, .redraw] s (s.display fb) := by
  intro p hp; cases p <;> simp_all [Part.same, State.stackEntry]

theorem frame_storeBytes (s : State) (a : Nat) (bs : List Byte) :
    unchangedExcept [.memory] s (s.storeBytes a bs) := by
  intro p hp; cases p <;> simp_all [Part.same, State.stackEntry]

theorem frame_countDraw (s : State) : unchangedExcept [.draws] s s.countDraw := by
  intro p hp; cases p <;> simp_all [Part.same, State.stackEntry]

/-! ### Updates -/

/-- One update of `s` that an instruction is built of, with the parts it writes. A push has room, and a store is
in range: what the invariants of 10_state.md R42 need. -/
inductive Update (s : State) : List Part → State → Prop where
  | setReg (x : Reg) (b : Byte) : Update s [.reg x] (s.setReg x b)
  | loadRegs (x : Reg) : Update s (regsUpTo x) (s.setRegs (s.loadedRegs x))
  | setIndex (w : Word) : Update s [.index] (s.setIndex w)
  | setPc (w : Word) : Update s [.pc] (s.setPc w)
  | push (w : Word) (room : s.sp < Config.stackCapacity) : Update s [.stack] (s.push w)
  | pop : Update s [.stack] s.pop
  | setDelay (b : Byte) : Update s [.delay] (s.setDelay b)
  | setSound (b : Byte) : Update s [.sound, .soundChanged] (s.setSound b)
  | display (fb : Framebuffer) : Update s [.framebuffer, .redraw] (s.display fb)
  | storeBytes (a : Nat) (bs : List Byte) (range : a + bs.length ≤ memSize) :
      Update s [.memory] (s.storeBytes a bs)
  | countDraw : Update s [.draws] s.countDraw
  | setFault (c : Condition) : Update s [.fault] (s.setFault c)

/-- `t` is reached from `s` by updates, each of which writes `PC`, FAULT or listed parts only. -/
inductive Updates (s : State) (ps : List Part) : State → Prop where
  | refl : Updates s ps s
  | step {qs : List Part} {t u : State} (before : Updates s ps t) (last : Update t qs u)
      (listed : qs ⊆ .pc :: .fault :: ps) : Updates s ps u

theorem Update.frame {ps : List Part} {s t : State} (h : Update s ps t) : unchangedExcept ps s t := by
  cases h with
  | setReg x b => exact frame_setReg s x b
  | loadRegs x => exact frame_loadRegs s x
  | setIndex w => exact frame_setIndex s w
  | setPc w => exact frame_setPc s w
  | push w _ => exact frame_push s w
  | pop => exact frame_pop s
  | setDelay b => exact frame_setDelay s b
  | setSound b => exact frame_setSound s b
  | display fb => exact frame_display s fb
  | storeBytes a bs _ => exact frame_storeBytes s a bs
  | countDraw => exact frame_countDraw s
  | setFault c => exact frame_setFault s c

theorem Updates.frame {ps : List Part} {s t : State} (h : Updates s ps t) :
    unchangedExcept (.pc :: .fault :: ps) s t := by
  induction h with
  | refl => exact unchangedExcept_refl _ s
  | step _ last listed ih => exact ih.trans (last.frame.mono fun _ hp => listed hp)

/-- No update writes the font. -/
theorem Update.font {ps : List Part} {s t : State} (h : Update s ps t) : t.font = s.font := by
  cases h <;> simp

theorem Updates.font {ps : List Part} {s t : State} (h : Updates s ps t) : t.font = s.font := by
  induction h with
  | refl => rfl
  | step _ last _ ih => exact last.font.trans ih

/-- A push fits under the capacity, a store in range keeps memory canonical, and no other update can break
an invariant. -/
theorem Update.inv {ps : List Part} {s t : State} (h : Update s ps t) (hs : s.Inv) : t.Inv := by
  obtain ⟨hsp, hacc, hmem⟩ := hs
  cases h with
  | push _ room => exact ⟨room, hacc, hmem⟩
  | pop => exact ⟨(Nat.sub_le ..).trans hsp, hacc, hmem⟩
  | storeBytes a bs range => exact ⟨hsp, hacc, State.memWf_storeBytes s a bs hmem range⟩
  | loadRegs x =>
    generalize s.loadedRegs x = v
    exact ⟨hsp, hacc, hmem⟩
  | setReg | setIndex | setPc | setDelay | setSound | display | countDraw | setFault =>
    exact ⟨hsp, hacc, hmem⟩

theorem Updates.inv {ps : List Part} {s t : State} (h : Updates s ps t) (hs : s.Inv) : t.Inv := by
  induction h with
  | refl => exact hs
  | step _ last _ ih => exact last.inv ih

/-! ### The key instructions, case by case -/

section
variable {s : State} {x : Reg}

theorem skipOnKey_eq_raise {wanted : Bool} (h : s.keyAt (s.reg x) = none) :
    skipOnKey x wanted s = raise (.keyIndexOutOfRange (s.reg x)) s := by
  simp [skipOnKey, h]

theorem skipOnKey_eq_skipIf {wanted pressed : Bool} (h : s.keyAt (s.reg x) = some pressed) :
    skipOnKey x wanted s = skipIf (pressed == wanted) s := by
  simp [skipOnKey, h]

theorem execWaitkey_eq_next (h : highestKey s.keys = none) : execWaitkey x s = .next s := by
  simp [execWaitkey, h]

theorem execWaitkey_eq_done {k : Reg} (h : highestKey s.keys = some k) :
    execWaitkey x s = done (s.setReg x (BitVec.ofNat 8 k.val)) := by
  simp [execWaitkey, h]

end

/-! ### The shapes of an instruction -/

/-- The result, if it is a next state, is reached from `s` by updates of `ps`. -/
def ReachedBy (s : State) (ps : List Part) (r : Result) : Prop := ∀ t, r = .next t → Updates s ps t

section
variable {ps : List Part} {s t : State}

theorem reachedBy_next (h : Updates s ps t) : ReachedBy s ps (.next t) := by
  rintro u ⟨⟩; exact h

theorem Updates.setPc (h : Updates s ps t) (w : Word) : Updates s ps (t.setPc w) :=
  h.step (.setPc w) (by simp)

theorem Updates.setReg (h : Updates s ps t) (x : Reg) (b : Byte) (hx : .reg x ∈ ps) :
    Updates s ps (t.setReg x b) := h.step (.setReg x b) (by simp [hx])

theorem reachedBy_done (h : Updates s ps t) : ReachedBy s ps (done t) := reachedBy_next (h.setPc _)

theorem reachedBy_raise (c : Condition) : ReachedBy s ps (raise c s) :=
  reachedBy_next (Updates.refl.step (.setFault c) (by simp))

theorem reachedBy_skipIf (c : Bool) : ReachedBy s ps (skipIf c s) := by
  rw [skipIf_eq]; exact reachedBy_next (Updates.refl.setPc _)

theorem reachedBy_doneUnless {c : Option Condition} (h : c = none → Updates s ps t) :
    ReachedBy s ps (doneUnless c s t) := by
  cases c with
  | none => exact reachedBy_done (h rfl)
  | some c => exact reachedBy_raise c

theorem reachedBy_assign {x : Reg} (b : Byte) (h : Updates s ps t) (hx : .reg x ∈ ps) :
    ReachedBy s ps (assign x b t) := reachedBy_done (h.setReg x b hx)

theorem reachedBy_assignWithFlag {x : Reg} (b : Byte) (f : Bool) (hx : .reg x ∈ ps)
    (hf : .reg regVF ∈ ps) : ReachedBy s ps (assignWithFlag x b f s) :=
  reachedBy_done ((Updates.refl.setReg x b hx).setReg regVF _ hf)

theorem reachedBy_skipOnKey (x : Reg) (wanted : Bool) : ReachedBy s ps (skipOnKey x wanted s) := by
  cases h : s.keyAt (s.reg x) with
  | none => rw [skipOnKey_eq_raise h]; exact reachedBy_raise _
  | some pressed => rw [skipOnKey_eq_skipIf h]; exact reachedBy_skipIf _

theorem reachedBy_storeFromIndex {bs : List Byte} (hb : 0 < bs.length) (hm : .memory ∈ ps) :
    ReachedBy s ps (storeFromIndex bs s) := by
  refine reachedBy_doneUnless fun hc => ?_
  have range : s.base + bs.length ≤ memSize := ((rangeFault_eq_none ..).mp hc).resolve_left hb.ne'
  exact Updates.refl.step (.storeBytes _ bs range) (by simp [hm])

theorem reachedBy_ret (hs : .stack ∈ ps) : ReachedBy s ps (execRet s) := by
  unfold execRet
  split
  · exact reachedBy_raise _
  · exact reachedBy_next ((Updates.refl.step .pop (by simp [hs])).setPc _)

theorem reachedBy_call (nnn : Nat) (hs : .stack ∈ ps) : ReachedBy s ps (execCall nnn s) := by
  unfold execCall callWithCapacity
  split
  · exact reachedBy_raise _
  · have room : s.sp < Config.stackCapacity := by omega
    exact reachedBy_next ((Updates.refl.step (.push _ room) (by simp [hs])).setPc _)

theorem reachedBy_waitkey {x : Reg} (hx : .reg x ∈ ps) : ReachedBy s ps (execWaitkey x s) := by
  cases h : highestKey s.keys with
  | none => rw [execWaitkey_eq_next h]; exact reachedBy_next .refl
  | some k => rw [execWaitkey_eq_done h]; exact reachedBy_done (Updates.refl.setReg x _ hx)

end

/-- All that an instruction can do: updates of the parts it lists (10_state.md R41). -/
theorem exec_reachedBy (i : Instr) (s : State) : ReachedBy s (writes i) (exec i s) := by
  cases i with
  | cls => exact reachedBy_done (Updates.refl.step (.display _) (by simp [writes]))
  | ret => exact reachedBy_ret (by simp [writes])
  | call nnn => exact reachedBy_call nnn (by simp [writes])
  | jmp | jmpv0 => exact reachedBy_next (Updates.refl.setPc _)
  | skeqi | sknei | skeq | skne => exact reachedBy_skipIf _
  | skkey | sknkey => exact reachedBy_skipOnKey _ _
  | movi | addi | mov | or | and | xor | rddt => exact reachedBy_assign _ .refl (by simp [writes])
  | waitkey => exact reachedBy_waitkey (by simp [writes])
  | add | sub | shr | rsub | shl =>
    exact reachedBy_assignWithFlag _ _ (by simp [writes]) (by simp [writes])
  | rand =>
    exact reachedBy_assign _ (Updates.refl.step .countDraw (by simp [writes])) (by simp [writes])
  | ldidx | glyph => exact reachedBy_done (Updates.refl.step (.setIndex _) (by simp [writes]))
  | addidx =>
    exact reachedBy_done ((Updates.refl.step (.setIndex _) (by simp [writes])).setReg regVF _
      (by simp [writes]))
  | draw =>
    exact reachedBy_doneUnless fun _ => (Updates.refl.step (.display _) (by simp [writes])).setReg
      regVF _ (by simp [writes])
  | wrdt => exact reachedBy_done (Updates.refl.step (.setDelay _) (by simp [writes]))
  | wrst => exact reachedBy_done (Updates.refl.step (.setSound _) (by simp [writes]))
  | bcd => exact reachedBy_storeFromIndex (by simp [decimalDigits]) (by simp [writes])
  | stregs => exact reachedBy_storeFromIndex (by simp) (by simp [writes])
  | ldregs x =>
    exact reachedBy_doneUnless fun _ => Updates.refl.step (.loadRegs x) (by simp [writes])

/-- Settles O14, by the updates of each instruction. -/
theorem instructionsWriteOnlyTheirParts : Obligations.InstructionsWriteOnlyTheirParts := by
  unfold Obligations.InstructionsWriteOnlyTheirParts
  intro i s t h
  exact (exec_reachedBy i s t h).frame

theorem reg_mem_regsUpTo (x k : Reg) : Part.reg k ∈ regsUpTo x ↔ k ≤ x := by simp [regsUpTo]

/-- An instruction that is no flag writer and whose destination is not `V[15]` does not list it. -/
theorem regVF_not_written {i : Instr} (h : mayWriteVF i = false) : .reg regVF ∉ writes i := by
  cases i with
  | add | sub | shr | rsub | shl | addidx | draw => cases h
  | movi x _ | addi x _ | mov x _ | or x _ | and x _ | xor x _ | rand x _ | rddt x | waitkey x =>
    have hx : x ≠ regVF := by simpa [mayWriteVF] using h
    simpa [writes] using hx.symm
  | ldregs x =>
    have hx : x ≠ regVF := by simpa [mayWriteVF] using h
    exact fun hm => hx (Fin.last_le_iff.mp ((reg_mem_regsUpTo x regVF).mp hm))
  | cls | ret | jmp | call | skeqi | sknei | skeq | skne | ldidx | jmpv0 | skkey | sknkey | wrdt | wrst
  | glyph | bcd | stregs => simp [writes]

/-- Settles O15: `V[15]` is outside the frame of such an instruction. -/
theorem onlyFlagWritersChangeVF : Obligations.OnlyFlagWritersChangeVF := by
  unfold Obligations.OnlyFlagWritersChangeVF
  intro i s t h hi
  exact (exec_reachedBy i s t h).frame (.reg regVF) (by simpa using regVF_not_written hi)

end Sys2Proof.Machine
end

section
/-! SUPPORT. Memory as data: the canonical form is determined by what the addresses read (log 12). -/

namespace Sys2Proof.Machine

/-- In a canonical memory the listed cells are the addresses of MEM that differ from what an unlisted one
reads as, with the byte they read. -/
theorem Memory.mem_iff_read (f : Font) {m : Memory} (h : m.wf f) (e : Host.Cell) :
    e ∈ m ↔ e.1 < memSize ∧ Memory.read f m e.1 = e.2 ∧ e.2 ≠ Memory.unlisted f e.1 := by
  obtain ⟨a, b⟩ := e
  induction m with
  | nil => simp +contextual [eq_comm]
  | cons d m ih =>
    obtain ⟨c, g⟩ := d
    obtain ⟨sorted, cells⟩ := h
    obtain ⟨hc, hm⟩ := List.pairwise_cons.mp sorted
    rw [List.mem_cons, ih ⟨hm, fun e he => cells e (List.mem_cons_of_mem _ he)⟩, Memory.read_cons]
    by_cases hac : a = c
    · subst hac
      obtain ⟨inRange, differs⟩ := cells (a, g) List.mem_cons_self
      rw [Memory.read_of_lt f m a hc, if_pos rfl]
      constructor
      · rintro (same | ⟨-, rfl, hne⟩)
        · cases same
          exact ⟨inRange, rfl, differs⟩
        · exact absurd rfl hne
      · rintro ⟨-, rfl, -⟩
        exact .inl rfl
    · simp [hac]

/-- Settles O37: both memories list the same cells, by rising address. -/
theorem canonicalMemoriesAreEqualWhenReadsAre :
    Obligations.CanonicalMemoriesAreEqualWhenReadsAre := by
  unfold Obligations.CanonicalMemoriesAreEqualWhenReadsAre
  intro f m m' h h' reads
  have : Std.Irrefl fun p q : Host.Cell => p.1 < q.1 := ⟨fun p => Nat.lt_irrefl p.1⟩
  have : Std.Antisymm fun p q : Host.Cell => p.1 < q.1 :=
    ⟨fun _ _ hpq hqp => absurd hqp (Nat.lt_asymm hpq)⟩
  refine h.1.eq_of_mem_iff h'.1 fun e => ?_
  rw [Memory.mem_iff_read f h, Memory.mem_iff_read f h']
  exact and_congr_right fun inRange => by rw [reads e.1 inRange]

end Sys2Proof.Machine
end

section
/-! SUPPORT. ST, ACC, REDRAW and SNDCHG, which no instruction reads (10_state.md R28, R33, R34, R36): two runs
from states that differ in these alone. -/

namespace Sys2Proof.Machine

/-- A state with other values in the four elements that no instruction reads. -/
def State.withUnread (s : State) (st : Byte) (acc : Nat) (redraw sndchg : Bool) : State :=
  { s with st := st, acc := acc, redraw := redraw, sndchg := sndchg }

/-- The states differ at most in the elements that no instruction reads. -/
def sameButUnread (s t : State) : Prop := ∃ st acc redraw sndchg, t = s.withUnread st acc redraw sndchg

/-- If the first result is a next state, the second is one that differs at most in the unread elements. -/
def sameResultButUnread (r r' : Result) : Prop :=
  ∀ t, r = .next t → ∃ t', r' = .next t' ∧ sameButUnread t t'

theorem sameResultButUnread_next {s s' : State} (h : sameButUnread s s') :
    sameResultButUnread (.next s) (.next s') := by
  rintro t ⟨⟩; exact ⟨s', rfl, h⟩

theorem sameResultButUnread_done {s s' : State} (h : sameButUnread s s') :
    sameResultButUnread (done s) (done s') := by
  obtain ⟨_, _, _, _, rfl⟩ := h
  exact sameResultButUnread_next ⟨_, _, _, _, rfl⟩

theorem sameResultButUnread_raise {s s' : State} (c : Condition) (h : sameButUnread s s') :
    sameResultButUnread (raise c s) (raise c s') := by
  obtain ⟨_, _, _, _, rfl⟩ := h
  exact sameResultButUnread_next ⟨_, _, _, _, rfl⟩

theorem sameResultButUnread_skipIf {s s' : State} (c : Bool) (h : sameButUnread s s') :
    sameResultButUnread (skipIf c s) (skipIf c s') := by
  obtain ⟨_, _, _, _, rfl⟩ := h
  rw [skipIf_eq, skipIf_eq]
  exact sameResultButUnread_next ⟨_, _, _, _, rfl⟩

theorem sameResultButUnread_doneUnless {s s' t t' : State} (c : Option Condition)
    (hs : sameButUnread s s') (ht : sameButUnread t t') :
    sameResultButUnread (doneUnless c s t) (doneUnless c s' t') := by
  cases c with
  | none => exact sameResultButUnread_done ht
  | some c => exact sameResultButUnread_raise c hs

theorem sameResultButUnread_ret {s s' : State} (h : sameButUnread s s') :
    sameResultButUnread (execRet s) (execRet s') := by
  obtain ⟨_, _, _, _, rfl⟩ := id h
  change sameResultButUnread (if s.sp = 0 then _ else _) (if s.sp = 0 then _ else _)
  split_ifs
  · exact sameResultButUnread_raise _ h
  · exact sameResultButUnread_next ⟨_, _, _, _, rfl⟩

theorem sameResultButUnread_call {s s' : State} (nnn : Nat) (h : sameButUnread s s') :
    sameResultButUnread (execCall nnn s) (execCall nnn s') := by
  obtain ⟨_, _, _, _, rfl⟩ := id h
  change sameResultButUnread (if Config.stackCapacity ≤ s.sp then _ else _)
    (if Config.stackCapacity ≤ s.sp then _ else _)
  split_ifs
  · exact sameResultButUnread_raise _ h
  · exact sameResultButUnread_next ⟨_, _, _, _, rfl⟩

theorem sameResultButUnread_skipOnKey {s s' : State} (x : Reg) (wanted : Bool) (h : sameButUnread s s') :
    sameResultButUnread (skipOnKey x wanted s) (skipOnKey x wanted s') := by
  obtain ⟨st, acc, redraw, sndchg, rfl⟩ := id h
  cases hk : s.keyAt (s.reg x) with
  | none =>
    have hk' : (s.withUnread st acc redraw sndchg).keyAt (s.reg x) = none := hk
    rw [skipOnKey_eq_raise hk, skipOnKey_eq_raise hk']
    exact sameResultButUnread_raise _ h
  | some pressed =>
    have hk' : (s.withUnread st acc redraw sndchg).keyAt (s.reg x) = some pressed := hk
    rw [skipOnKey_eq_skipIf hk, skipOnKey_eq_skipIf hk']
    exact sameResultButUnread_skipIf _ h

theorem sameResultButUnread_waitkey {s s' : State} (x : Reg) (h : sameButUnread s s') :
    sameResultButUnread (execWaitkey x s) (execWaitkey x s') := by
  obtain ⟨st, acc, redraw, sndchg, rfl⟩ := id h
  cases hk : highestKey s.keys with
  | none =>
    have hk' : highestKey (s.withUnread st acc redraw sndchg).keys = none := hk
    rw [execWaitkey_eq_next hk, execWaitkey_eq_next hk']
    exact sameResultButUnread_next h
  | some k =>
    have hk' : highestKey (s.withUnread st acc redraw sndchg).keys = some k := hk
    rw [execWaitkey_eq_done hk, execWaitkey_eq_done hk']
    exact sameResultButUnread_done ⟨_, _, _, _, rfl⟩

/-- No instruction reads the unread elements. -/
theorem exec_sameButUnread (i : Instr) {s s' : State} (h : sameButUnread s s') :
    sameResultButUnread (exec i s) (exec i s') := by
  obtain ⟨_, _, _, _, rfl⟩ := id h
  cases i with
  | ret => exact sameResultButUnread_ret h
  | call nnn => exact sameResultButUnread_call nnn h
  | jmp | jmpv0 => exact sameResultButUnread_next ⟨_, _, _, _, rfl⟩
  | skeqi | sknei | skeq | skne => exact sameResultButUnread_skipIf _ h
  | skkey | sknkey => exact sameResultButUnread_skipOnKey _ _ h
  | waitkey x => exact sameResultButUnread_waitkey x h
  | draw | bcd | stregs | ldregs => exact sameResultButUnread_doneUnless _ h ⟨_, _, _, _, rfl⟩
  | cls | movi | addi | mov | or | and | xor | add | sub | shr | rsub | shl | ldidx | rand | rddt | wrdt
  | wrst | addidx | glyph => exact sameResultButUnread_done ⟨_, _, _, _, rfl⟩

/-- Settles O16. -/
theorem unreadElementsDoNotInterfere : Obligations.UnreadElementsDoNotInterfere := by
  unfold Obligations.UnreadElementsDoNotInterfere
  intro i s s' t hs h
  obtain ⟨t', ht', st, acc, redraw, sndchg, rfl⟩ := exec_sameButUnread i ⟨_, _, _, _, hs⟩ t h
  exact ⟨_, ht', rfl⟩

end Sys2Proof.Machine
end

section
/-! SUPPORT. What the events and the timer engine do to the state (60_exceptions.md R246, R255), and the
invariants that every step keeps (10_state.md R42). -/

namespace Sys2Proof.Machine

/-! ### The timer engine -/

/-- The loop writes the timers and ACC only. -/
theorem timerLoop_eq (period fuel : Nat) (s : State) :
    ∃ dt st acc, timerLoop period fuel s = { s with dt := dt, st := st, acc := acc } := by
  induction fuel generalizing s with
  | zero => exact ⟨_, _, _, rfl⟩
  | succ fuel ih =>
    unfold timerLoop
    split
    · obtain ⟨dt, st, acc, h⟩ := ih { s.timerRound with acc := s.acc - period }
      exact ⟨dt, st, acc, h⟩
    · exact ⟨_, _, _, rfl⟩

/-- With fuel enough the loop leaves ACC at the remainder (60_exceptions.md R247). -/
theorem timerLoop_acc {period : Nat} (hp : 0 < period) (fuel : Nat) (s : State) (hf : s.acc ≤ fuel) :
    (timerLoop period fuel s).acc = s.acc % period := by
  induction fuel generalizing s with
  | zero => simp [timerLoop, Nat.le_zero.mp hf]
  | succ fuel ih =>
    unfold timerLoop
    split
    · rename_i round
      rw [ih _ (by simp only; omega), Nat.mod_eq_sub_mod round]
    · rename_i below
      exact (Nat.mod_eq_of_lt (by omega)).symm

theorem timerAdvance_eq (dt : Nat) (s : State) :
    ∃ delay sound acc, timerAdvance dt s = { s with dt := delay, st := sound, acc := acc } :=
  timerLoop_eq Config.period (s.acc + min dt Config.dtCap) { s with acc := s.acc + min dt Config.dtCap }

theorem timerAdvance_acc_lt (dt : Nat) (s : State) : (timerAdvance dt s).acc < Config.period := by
  have remainder := timerLoop_acc period_pos _ { s with acc := s.acc + min dt Config.dtCap } le_rfl
  exact remainder.trans_lt (Nat.mod_lt _ period_pos)

/-! ### The invariants and the events -/

theorem State.inv_reset : State.reset.Inv := ⟨Nat.zero_le _, period_pos, Memory.wf_nil _⟩

theorem State.inv_resetEvent (s : State) : (resetEvent s).Inv :=
  ⟨Nat.zero_le _, period_pos, Memory.wf_nil _⟩

/-- All that LoadImage can do (70_reset_and_hazards.md R284). -/
theorem loadImage_cases (image : List Byte) (s : State) :
    (loadAddress + image.length ≤ memSize ∧ loadImage image s =
      { s.storeBytes loadAddress image with reply := .loaded, lifecycle := .ready }) ∨
    (memSize < loadAddress + image.length ∧ loadImage image s =
      { s with reply := .imageTooLarge, lifecycle := .loadFailed }) := by
  unfold loadImage
  by_cases tooLong : image.length > memSize - loadAddress
  · rw [if_pos tooLong]
    exact .inr ⟨by omega, rfl⟩
  · rw [if_neg tooLong]
    exact .inl ⟨by simp only [memSize, loadAddress] at *; omega, rfl⟩

/-- A Step event answers a state reached by updates. -/
theorem stepEvent_updates {s t : State} (h : stepEvent s = .next t) : ∃ ps, Updates s ps t := by
  rcases stepEvent_cases s with ⟨-, hs⟩ | ⟨c, -, -, hs⟩ | ⟨w, -, -, -, hs⟩ | ⟨w, i, -, -, -, hs⟩
  · rw [hs] at h; cases h
    exact ⟨[], .refl⟩
  · exact ⟨[], reachedBy_raise c t (hs.symm.trans h)⟩
  · exact ⟨[], reachedBy_raise _ t (hs.symm.trans h)⟩
  · exact ⟨writes i, exec_reachedBy i s t (hs.symm.trans h)⟩

/-- The host's events other than Step and Reset leave the stack depth, the font and FAULT. -/
theorem eventEffect_keeps {e : Event} {s t : State} (hs : e ≠ .step) (hr : e ≠ .reset)
    (h : eventEffect e s = .next t) : t.sp = s.sp ∧ t.font = s.font ∧ t.fault = s.fault := by
  cases e with
  | step => exact absurd rfl hs
  | reset => exact absurd rfl hr
  | loadImage image =>
    cases h
    rcases loadImage_cases image s with ⟨-, h⟩ | ⟨-, h⟩ <;> rw [h] <;> exact ⟨rfl, rfl, rfl⟩
  | timerAdvance dt =>
    cases h
    obtain ⟨_, _, _, h⟩ := timerAdvance_eq dt s
    rw [h]; exact ⟨rfl, rfl, rfl⟩
  | tick | setKeys | setWrapPolicy | consumeRedraw | consumeSoundChanged =>
    cases h; exact ⟨rfl, rfl, rfl⟩

theorem eventEffect_font {e : Event} {s t : State} (h : eventEffect e s = .next t) :
    t.font = s.font := by
  by_cases hs : e = .step
  · subst hs
    obtain ⟨_, hu⟩ := stepEvent_updates h
    exact hu.font
  by_cases hr : e = .reset
  · subst hr; cases h; rfl
  exact (eventEffect_keeps hs hr h).2.1

/-- A halted machine keeps its condition through every event but Reset (60_exceptions.md R239, R240). -/
theorem eventEffect_fault {e : Event} {s t : State} {c : Condition} (hf : s.fault = some c)
    (hr : e ≠ .reset) (h : eventEffect e s = .next t) : t.fault = some c := by
  by_cases hs : e = .step
  · subst hs
    have halted : stepEvent s = .next s := by simp [stepEvent, hf]
    cases halted.symm.trans h
    exact hf
  · exact (eventEffect_keeps hs hr h).2.2.trans hf

theorem eventEffect_inv {e : Event} {s t : State} (h : eventEffect e s = .next t) (hi : s.Inv) :
    t.Inv := by
  obtain ⟨hsp, hacc, hmem⟩ := hi
  cases e with
  | step =>
    obtain ⟨_, hu⟩ := stepEvent_updates h
    exact hu.inv ⟨hsp, hacc, hmem⟩
  | reset => cases h; exact State.inv_resetEvent s
  | loadImage image =>
    cases h
    rcases loadImage_cases image s with ⟨range, h⟩ | ⟨-, h⟩ <;> rw [h]
    · exact ⟨hsp, hacc, State.memWf_storeBytes s _ image hmem range⟩
    · exact ⟨hsp, hacc, hmem⟩
  | timerAdvance dt =>
    cases h
    have hlt := timerAdvance_acc_lt dt s
    obtain ⟨_, _, _, h⟩ := timerAdvance_eq dt s
    rw [h] at hlt ⊢
    exact ⟨hsp, hlt, hmem⟩
  | tick | setKeys | setWrapPolicy | consumeRedraw | consumeSoundChanged =>
    cases h; exact ⟨hsp, hacc, hmem⟩

/-! ### Every step -/

/-- Settles O57: both counters are 0 and memory lists nothing. -/
theorem resetHasInvariants : Obligations.ResetHasInvariants := State.inv_reset

/-- Settles O56: taking the event leaves the three elements, and every event keeps the invariants. -/
theorem stepKeepsInvariants : Obligations.StepKeepsInvariants := by
  unfold Obligations.StepKeepsInvariants
  intro s t hi h
  obtain ⟨e, u, hu, -, effect⟩ := nextEvent_cases h
  obtain ⟨rest, host, rfl⟩ := comesNext_cases hu
  exact eventEffect_inv effect hi

/-- Settles O59, by the events. -/
theorem noStepWritesTheFont : Obligations.NoStepWritesTheFont := by
  unfold Obligations.NoStepWritesTheFont
  intro s t h
  obtain ⟨e, u, hu, -, effect⟩ := nextEvent_cases h
  exact (eventEffect_font effect).trans (frame_comesNext hu .font (by simp))

/-- Settles O58: the next event is not Reset, and every other event leaves a condition in FAULT. -/
theorem faultStaysUntilReset : Obligations.FaultStaysUntilReset := by
  unfold Obligations.FaultStaysUntilReset
  intro s t c hf notReset h
  obtain ⟨e, u, hu, -, effect⟩ := nextEvent_cases h
  have hr : e ≠ .reset := by
    rintro rfl
    exact notReset u hu
  have fault : u.fault = s.fault := frame_comesNext hu .fault (by simp)
  exact eventEffect_fault (fault.trans hf) hr effect

/-! ### Reset -/

@[simp] theorem resetEvent_reg (s : State) (x : Reg) : (resetEvent s).reg x = 0 := by
  simp [State.reg, resetEvent, State.reset]

@[simp] theorem resetEvent_stackEntry (s : State) (k : Nat) : (resetEvent s).stackEntry k = 0 := by
  by_cases hk : k < 24 <;> simp [State.stackEntry, resetEvent, State.reset, hk]

@[simp] theorem resetEvent_cell (s : State) (r : Fin 32) (c : Fin 64) :
    (resetEvent s).fb.cell r c = false := Framebuffer.cell_clear r c

@[simp] theorem resetEvent_keys (s : State) (k : Fin 16) : (resetEvent s).keys[k] = false := by
  simp [resetEvent, State.reset]

/-- The font of this machine stands in the low 80 bytes (10_state.md R38, R40). -/
@[simp] theorem resetEvent_byteAt_font (s : State) (a : Fin 80) :
    (resetEvent s).byteAt a.val = s.font[a] := by
  rw [State.byteAt_of_nil _ rfl, dif_pos a.isLt]; rfl

theorem resetEvent_byteAt_zero (s : State) {a : Nat} (h : 80 ≤ a) : (resetEvent s).byteAt a = 0 := by
  rw [State.byteAt_of_nil _ rfl, dif_neg (by omega)]

/-- Settles O50: the state after reset is `resetEvent State.reset`, by unfolding. -/
theorem resetStateValues : Obligations.ResetStateValues := by
  unfold Obligations.ResetStateValues
  have font (a : Fin 80) : State.reset.byteAt a.val = State.reset.font[a] :=
    resetEvent_byteAt_font State.reset a
  exact ⟨resetEvent_reg State.reset, rfl, rfl, rfl, resetEvent_stackEntry State.reset, rfl, rfl,
    resetEvent_cell State.reset, resetEvent_keys State.reset, font,
    fun _ h _ => resetEvent_byteAt_zero State.reset h, rfl, rfl, rfl, rfl⟩

/-- Settles O49: Reset is accepted in every state, and taking it leaves what it keeps. -/
theorem resetEventSetsEveryElement : Obligations.ResetEventSetsEveryElement := by
  unfold Obligations.ResetEventSetsEveryElement
  intro s u hu
  have accepted : refusalOf s.lifecycle .reset = none := by cases s.lifecycle <;> rfl
  refine ⟨resetEvent u, nextEvent_of_accepted hu accepted, ?_⟩
  obtain ⟨rest, host, rfl⟩ := comesNext_cases hu
  exact ⟨resetEvent_reg _, rfl, rfl, rfl, resetEvent_stackEntry _, rfl, rfl, resetEvent_cell _,
    resetEvent_keys _, resetEvent_byteAt_font _, rfl, fun _ h _ => resetEvent_byteAt_zero _ h,
    rfl, rfl, rfl, rfl, rfl, rfl, rfl, rfl, rfl, rfl⟩

end Sys2Proof.Machine
end

section
/-! SUPPORT. What a Step that executes does with the word it fetches (20_memory.md R69, 60_exceptions.md R256),
and a block that STREGS has stored, byte by byte (20_memory.md R67, 42_index_memory.md R182). -/

namespace Sys2Proof.Machine

/-! ### A Step that executes -/

section
variable {s u : State}

/-- Taking the Step changes neither `PC` nor memory. -/
theorem fetch_of_running (h : s.running u) : fetch u = fetch s := by
  obtain ⟨_, _, rfl⟩ := comesNext_cases h.2.2
  rfl

theorem fault_of_running (h : s.running u) : u.fault = none := by
  obtain ⟨-, notHalted, next⟩ := h
  exact (frame_comesNext next .fault (by simp)).trans notHalted

/-- A condition raised by the fetch ends the Step (60_exceptions.md R238). -/
theorem step_of_fetch_error {c : Condition} (h : s.running u) (hf : fetch s = .error c) :
    step s = .next (u.setFault c) := by
  rw [step, nextEvent_of_running h]
  simp [stepEvent, fault_of_running h, fetch_of_running h, hf, raise_eq]

theorem step_of_decode {w : Word} {i : Instr} (h : s.running u) (hf : fetch s = .ok w)
    (hd : decode w = some i) : step s = exec i u := by
  rw [step, nextEvent_of_running h]
  simp [stepEvent, fault_of_running h, fetch_of_running h, hf, hd]

end

/-- Settles O7, by the three places of `PC`: both bytes in memory, only the first, neither. -/
theorem fetchIsBigEndianAndRangeChecked : Obligations.FetchIsBigEndianAndRangeChecked := by
  unfold Obligations.FetchIsBigEndianAndRangeChecked
  refine ⟨fun s hpc => ?_, fun s u hs hpc => ?_, fun s u hs hpc => ?_⟩
  · have inRange : s.pc.toNat + 1 < memSize := by simp only [memSize]; omega
    exact ⟨_, fetch_eq_ok s inRange, wordOfBytes_toNat _ _⟩
  · have secondOut : s.pc.toNat + 1 = memSize := by simp only [memSize, hpc]
    exact step_of_fetch_error hs (fetch_eq_error_second s secondOut)
  · exact step_of_fetch_error hs (fetch_eq_error_first s hpc)

/-! ### A stored register block -/

section
variable {s : State} {x : Reg}

theorem storeFromIndex_of_inRange {bs : List Byte} (range : s.base + bs.length ≤ memSize) :
    storeFromIndex bs s = .next (s.storeBytes s.base bs).nextInstr := by
  have passes : rangeFault s.base bs.length = none := (rangeFault_eq_none ..).mpr (.inr range)
  rw [storeFromIndex, passes]; rfl

theorem exec_stregs_of_inRange (range : s.base + x.val < memSize) :
    exec (.stregs x) s = .next (s.storeBytes s.base (s.firstRegs x)).nextInstr :=
  storeFromIndex_of_inRange (by rw [State.firstRegs_length]; omega)

theorem State.byteAt_storeBytes_firstRegs (wf : s.memWf) (range : s.base + x.val < memSize) {k : Reg}
    (hk : k ≤ x) : (s.storeBytes s.base (s.firstRegs x)).byteAt (s.base + k.val) = s.reg k := by
  have hlen := s.firstRegs_length x
  have hkx : k.val ≤ x.val := hk
  rw [State.byteAt_storeBytes s _ _ _ wf (by omega), if_pos (by omega), Nat.add_sub_cancel_left,
    State.firstRegs_getD s x k hk]

/-- With `I` at the next instruction, the block that STREGS stores begins with the next word fetched. -/
theorem fetch_after_stregs (wf : s.memWf) (hx : 1 ≤ x.val) (next : s.base = s.pc.toNat + 2)
    (range : s.base + x.val < memSize) :
    fetch (s.storeBytes s.base (s.firstRegs x)).nextInstr = .ok (wordOfBytes (s.reg 0) (s.reg 1)) := by
  simp only [memSize] at range
  have hpc : (s.storeBytes s.base (s.firstRegs x)).nextInstr.pc.toNat = s.base := by
    rw [State.nextInstr_pc, State.storeBytes_pc]
    bv_omega
  have first := State.byteAt_storeBytes_firstRegs wf range (Fin.zero_le x)
  have second := State.byteAt_storeBytes_firstRegs wf range (k := 1) hx
  rw [fetch_eq_ok _ (by simp only [memSize]; omega), hpc]
  exact congrArg Except.ok (congrArg₂ wordOfBytes first second)

end

/-- Settles O36: the Step executes STREGS, and the next fetch reads the first two bytes of its block. -/
theorem storedBytesAreFetchedNext : Obligations.StoredBytesAreFetchedNext := by
  unfold Obligations.StoredBytesAreFetchedNext
  intro x s u wf hs hx stregs next range
  have inRange : s.pc.toNat + 1 < memSize := by simp only [memSize]; omega
  have executes : step s = exec (.stregs x) u := step_of_decode hs (fetch_eq_ok s inRange) stregs
  obtain ⟨rest, host, rfl⟩ := comesNext_cases hs.2.2
  exact ⟨_, executes.trans (exec_stregs_of_inRange range), fetch_after_stregs wf hx next range⟩

end Sys2Proof.Machine
end

section
/-! SUPPORT. Decode and encode agree (30_encoding.md R93 to R102): the fields of the word each format writes, the
word that fields write again, and so the words that decode to an instruction. -/

namespace Sys2Proof

/-! ### The fields of a format's word -/

section
variable (c s : BitVec 4) (x y : Reg) (nn : Byte) (nnn : Nat)

@[simp] theorem fieldOp_encodeNNN : fieldOp (encodeNNN c nnn) = c.toNat := by
  rw [fieldOp_eq, encodeNNN_toNat]; omega

@[simp] theorem fieldNNN_encodeNNN : fieldNNN (encodeNNN c nnn) = nnn % 4096 := by
  rw [fieldNNN_eq, encodeNNN_toNat]; omega

@[simp] theorem fieldOp_encodeXNN : fieldOp (encodeXNN c x nn) = c.toNat := by
  rw [fieldOp_eq, encodeXNN_toNat]; omega

@[simp] theorem fieldX_encodeXNN : fieldX (encodeXNN c x nn) = x := by
  apply Fin.ext
  rw [fieldX_val, encodeXNN_toNat]; omega

@[simp] theorem fieldNN_encodeXNN : fieldNN (encodeXNN c x nn) = nn := by
  apply BitVec.eq_of_toNat_eq
  rw [fieldNN_toNat, encodeXNN_toNat]; omega

@[simp] theorem fieldOp_encodeXY : fieldOp (encodeXY c x y s) = c.toNat := by
  rw [fieldOp_eq, encodeXY_toNat]; omega

@[simp] theorem fieldX_encodeXY : fieldX (encodeXY c x y s) = x := by
  apply Fin.ext
  rw [fieldX_val, encodeXY_toNat]; omega

@[simp] theorem fieldY_encodeXY : fieldY (encodeXY c x y s) = y := by
  apply Fin.ext
  rw [fieldY_val, encodeXY_toNat]; omega

@[simp] theorem fieldN_encodeXY : fieldN (encodeXY c x y s) = s.toNat := by
  rw [fieldN_eq, encodeXY_toNat]; omega

/-- Mask 0xFF0F clears the Y field. -/
theorem encodeXY_and_FF0F : encodeXY c x y s &&& 0xFF0F#16 = encodeXY c x 0 s := by
  show (c ++ regField x ++ regField y ++ s) &&& (0xF#4 ++ 0xF#4 ++ 0x0#4 ++ 0xF#4) =
    c ++ regField x ++ regField 0 ++ s
  have ones (a : BitVec 4) : a &&& 0xF#4 = a := BitVec.and_allOnes
  simp only [BitVec.and_append, ones, BitVec.and_zero]
  rfl

end

/-! ### A word from its fields -/

section
variable {w : Word} {c : BitVec 4}

theorem encodeNNN_of_fields (op : fieldOp w = c.toNat) : encodeNNN c (fieldNNN w) = w := by
  apply BitVec.eq_of_toNat_eq
  rw [fieldOp_eq] at op
  rw [encodeNNN_toNat, fieldNNN_eq]; omega

theorem encodeXNN_of_fields {nn : Byte} (op : fieldOp w = c.toNat)
    (low : (fieldNN w).toNat = nn.toNat) : encodeXNN c (fieldX w) nn = w := by
  apply BitVec.eq_of_toNat_eq
  rw [fieldOp_eq] at op
  rw [fieldNN_toNat] at low
  rw [encodeXNN_toNat, fieldX_val]; omega

theorem encodeXY_of_fields {s : BitVec 4} (op : fieldOp w = c.toNat) (sub : fieldN w = s.toNat) :
    encodeXY c (fieldX w) (fieldY w) s = w := by
  apply BitVec.eq_of_toNat_eq
  rw [fieldOp_eq] at op
  rw [fieldN_eq] at sub
  rw [encodeXY_toNat, fieldX_val, fieldY_val]; omega

end

/-! ### The words of an instruction -/

/-- The word of `i` with `y` in the Y field that SHR and SHL ignore (R100); every other instruction has one
word. -/
def wordWithY : Instr → Reg → Word
  | .shr x, y => encodeXY 0x8#4 x y 0x6#4
  | .shl x, y => encodeXY 0x8#4 x y 0xE#4
  | i, _ => encode i

/-- The encoder writes 0 in the ignored field (R102). -/
theorem wordWithY_zero (i : Instr) : wordWithY i 0 = encode i := by
  unfold wordWithY; split <;> rfl

theorem wordWithY_eq_encode {i : Instr} (h : ∀ x, i ≠ .shr x ∧ i ≠ .shl x) (y : Reg) :
    wordWithY i y = encode i := by
  unfold wordWithY
  split
  · exact absurd rfl (h _).1
  · exact absurd rfl (h _).2
  · rfl

/-- Every word of an instruction decodes to it. -/
theorem decode_wordWithY {i : Instr} (wf : i.wellFormed = true) (y : Reg) :
    decode (wordWithY i y) = some i := by
  cases i with
  | cls | ret => simp [wordWithY, encode, decode, fieldOp]
  | jmp nnn | call nnn | ldidx nnn | jmpv0 nnn =>
    have fits : nnn % 4096 = nnn := Nat.mod_eq_of_lt (of_decide_eq_true wf)
    simp [wordWithY, encode, decode, fits]
  | draw x y n =>
    have fits : n % 16 = n := Nat.mod_eq_of_lt (of_decide_eq_true wf)
    simp [wordWithY, encode, decode, fits]
  | skeqi | sknei | movi | addi | rand | skeq | skne => simp [wordWithY, encode, decode]
  | mov | or | and | xor | add | sub | shr | rsub | shl =>
    simp [wordWithY, encode, decode, decodeClass8]
  | skkey | sknkey => simp [wordWithY, encode, decode, decodeClassE]
  | rddt | waitkey | wrdt | wrst | addidx | glyph | bcd | stregs | ldregs =>
    simp [wordWithY, encode, decode, decodeClassF]

theorem fieldOp_lt (w : Word) : fieldOp w < 16 := (w.extractLsb' 12 4).isLt

theorem fieldNNN_lt (w : Word) : fieldNNN w < 4096 := (w.extractLsb' 0 12).isLt

theorem fieldN_lt (w : Word) : fieldN w < 16 := (w.extractLsb' 0 4).isLt

section
variable {w : Word} {i : Instr}

theorem word_of_decodeClass8 (op : fieldOp w = 0x8) (h : decodeClass8 w = some i) :
    i.wellFormed = true ∧ wordWithY i (fieldY w) = w := by
  unfold decodeClass8 at h
  split at h <;> cases h <;> exact ⟨rfl, encodeXY_of_fields op ‹_›⟩

theorem word_of_decodeClassE (op : fieldOp w = 0xE) (h : decodeClassE w = some i) :
    i.wellFormed = true ∧ wordWithY i (fieldY w) = w := by
  unfold decodeClassE at h
  split at h <;> cases h <;> exact ⟨rfl, encodeXNN_of_fields op ‹_›⟩

theorem word_of_decodeClassF (op : fieldOp w = 0xF) (h : decodeClassF w = some i) :
    i.wellFormed = true ∧ wordWithY i (fieldY w) = w := by
  unfold decodeClassF at h
  split at h <;> cases h <;> exact ⟨rfl, encodeXNN_of_fields op ‹_›⟩

/-- What the decode procedure reads back (R97): the word is a word of the instruction. Case `h_k` is op class
`k - 1`, whose format (R95) writes the word from its fields. -/
theorem word_of_decode (h : decode w = some i) :
    i.wellFormed = true ∧ wordWithY i (fieldY w) = w := by
  unfold decode at h
  split at h
  case h_1 =>
    split at h
    · cases h; exact ⟨rfl, .symm ‹_›⟩
    · split at h <;> cases h
      exact ⟨rfl, .symm ‹_›⟩
  case h_2 op | h_3 op | h_11 op | h_12 op =>
    cases h; exact ⟨decide_eq_true (fieldNNN_lt w), encodeNNN_of_fields op⟩
  case h_4 op | h_5 op | h_7 op | h_8 op | h_13 op =>
    cases h; exact ⟨rfl, encodeXNN_of_fields op rfl⟩
  case h_6 op | h_10 op =>
    split at h <;> cases h
    exact ⟨rfl, encodeXY_of_fields op ‹_›⟩
  case h_9 op => exact word_of_decodeClass8 op h
  case h_14 op =>
    cases h
    refine ⟨decide_eq_true (fieldN_lt w), encodeXY_of_fields op ?_⟩
    exact (Nat.mod_eq_of_lt (fieldN_lt w)).symm
  case h_15 op => exact word_of_decodeClassE op h
  case h_16 op => exact word_of_decodeClassF op h
  case h_17 => cases h

end

/-- Settles O1: the encoder's word is the one with 0 in the ignored field. -/
theorem decodeOfEncodeIsIdentity : Obligations.DecodeOfEncodeIsIdentity := by
  unfold Obligations.DecodeOfEncodeIsIdentity
  intro i wf
  rw [← wordWithY_zero i]
  exact decode_wordWithY wf 0

/-- Settles O2: a decoded word is a word of its instruction, and for a shift the mask clears its Y field. -/
theorem encodeOfDecodeIsIdentity : Obligations.EncodeOfDecodeIsIdentity := by
  unfold Obligations.EncodeOfDecodeIsIdentity
  intro w i h
  obtain ⟨wf, word⟩ := word_of_decode h
  refine ⟨wf, fun notShift => ?_, fun x shift => ?_⟩
  · rw [← wordWithY_eq_encode notShift, word]
  · rw [← word]
    obtain rfl | rfl := shift <;> exact (encodeXY_and_FF0F ..).symm

/-- Settles O5: a shift decodes from its word with any Y; the word of any other instruction is its encoding. -/
theorem onlyShiftsIgnoreAField : Obligations.OnlyShiftsIgnoreAField := by
  unfold Obligations.OnlyShiftsIgnoreAField
  refine ⟨fun x y => ⟨decode_wordWithY (i := .shr x) rfl y, decode_wordWithY (i := .shl x) rfl y⟩, ?_⟩
  intro w w' i h h' notShift
  calc w = encode i := by rw [← wordWithY_eq_encode notShift, (word_of_decode h).2]
    _ = w' := by rw [← wordWithY_eq_encode notShift, (word_of_decode h').2]

end Sys2Proof
end

section
/-! SUPPORT. The opcode map selects what the decode procedure gives (30_encoding.md R96), and the words that both
leave unrecognised (R99). -/

namespace Sys2Proof

/-! ### The opcode map -/

/-- Every word of an instruction selects the row of its mnemonic. -/
theorem exists_row_selects_wordWithY (i : Instr) (y : Reg) :
    ∃ r ∈ opcodeMap, r.mnemonic = i.mnemonic ∧ r.selects (wordWithY i y) = true := by
  open Laws Laws.EncodesInRow in
  cases i with
  | cls => exact EncodesInRow.cls
  | ret => exact EncodesInRow.ret
  | jmp => exact EncodesInRow.jmp _
  | call => exact EncodesInRow.call _
  | skeqi => exact EncodesInRow.skeqi _ _
  | sknei => exact EncodesInRow.sknei _ _
  | skeq => exact EncodesInRow.skeq _ _
  | movi => exact EncodesInRow.movi _ _
  | addi => exact EncodesInRow.addi _ _
  | mov => exact EncodesInRow.mov _ _
  | or => exact EncodesInRow.or _ _
  | and => exact EncodesInRow.and _ _
  | xor => exact EncodesInRow.xor _ _
  | add => exact EncodesInRow.add _ _
  | sub => exact EncodesInRow.sub _ _
  | shr x => exact ⟨⟨"SHR", 0x8006, 0xF00F⟩, by decide, rfl, selects_XY _ 0x8#4 0x6#4 _ x y rfl⟩
  | rsub => exact EncodesInRow.rsub _ _
  | shl x => exact ⟨⟨"SHL", 0x800E, 0xF00F⟩, by decide, rfl, selects_XY _ 0x8#4 0xE#4 _ x y rfl⟩
  | skne => exact EncodesInRow.skne _ _
  | ldidx => exact EncodesInRow.ldidx _
  | jmpv0 => exact EncodesInRow.jmpv0 _
  | rand => exact EncodesInRow.rand _ _
  | draw => exact EncodesInRow.draw _ _ _
  | skkey => exact EncodesInRow.skkey _
  | sknkey => exact EncodesInRow.sknkey _
  | rddt => exact EncodesInRow.rddt _
  | waitkey => exact EncodesInRow.waitkey _
  | wrdt => exact EncodesInRow.wrdt _
  | wrst => exact EncodesInRow.wrst _
  | addidx => exact EncodesInRow.addidx _
  | glyph => exact EncodesInRow.glyph _
  | bcd => exact EncodesInRow.bcd _
  | stregs => exact EncodesInRow.stregs _
  | ldregs => exact EncodesInRow.ldregs _

/-- The mnemonic names the row. -/
theorem eq_of_mnemonic_eq {r q : OpcodeRow} (hr : r ∈ opcodeMap) (hq : q ∈ opcodeMap)
    (h : r.mnemonic = q.mnemonic) : r = q :=
  List.inj_on_of_nodup_map (by decide : (opcodeMap.map OpcodeRow.mnemonic).Nodup) hr hq h

section
variable {w : Word} {name : String} {p : Word}

theorem toNat_of_selects {r : OpcodeRow} (h : r.selects w = true) :
    (w &&& r.mask).toNat = r.pattern.toNat := congrArg _ (eq_of_beq h)

theorem eq_of_selects_FFFF (h : OpcodeRow.selects ⟨name, p, 0xFFFF⟩ w = true) : w = p :=
  (BitVec.and_allOnes (x := w)).symm.trans (eq_of_beq h)

theorem fieldOp_of_selects_F000 (h : OpcodeRow.selects ⟨name, p, 0xF000⟩ w = true) :
    fieldOp w = p.toNat / 4096 := by
  have masked : _ = p.toNat := (and_F000_toNat w).symm.trans (toNat_of_selects h)
  rw [fieldOp_eq]; omega

theorem fields_of_selects_F00F (h : OpcodeRow.selects ⟨name, p, 0xF00F⟩ w = true) :
    fieldOp w = p.toNat / 4096 ∧ fieldN w = p.toNat % 16 := by
  have masked : _ = p.toNat := (and_F00F_toNat w).symm.trans (toNat_of_selects h)
  rw [fieldOp_eq, fieldN_eq]; omega

theorem fields_of_selects_F0FF (h : OpcodeRow.selects ⟨name, p, 0xF0FF⟩ w = true) :
    fieldOp w = p.toNat / 4096 ∧ (fieldNN w).toNat = p.toNat % 256 := by
  have masked : _ = p.toNat := (and_F0FF_toNat w).symm.trans (toNat_of_selects h)
  rw [fieldOp_eq, fieldNN_toNat]; omega

end

/-- `w` decodes to an instruction of this mnemonic. -/
def DecodesTo (w : Word) (name : String) : Prop := ∃ i, decode w = some i ∧ i.mnemonic = name

section
variable {w : Word} {r : OpcodeRow}

theorem decodesTo_of_selects_plain (hr : r ∈ opcodeRowsPlain) (h : r.selects w = true) :
    DecodesTo w r.mnemonic := by
  revert r
  simp only [opcodeRowsPlain, List.forall_mem_cons]
  refine ⟨?cls, ?ret, ?jmp, ?call, ?skeqi, ?sknei, ?skeq, ?movi, ?addi, ?skne, ?ldidx, ?jmpv0, ?rand,
    ?draw, by simp⟩
  case cls | ret =>
    intro h
    rw [eq_of_selects_FFFF h]
    exact ⟨_, rfl, rfl⟩
  case skeq | skne =>
    intro h
    obtain ⟨op, sub⟩ := fields_of_selects_F00F h
    simp [DecodesTo, decode, op, sub, Instr.mnemonic]
  case jmp | call | skeqi | sknei | movi | addi | ldidx | jmpv0 | rand | draw =>
    intro h
    simp [DecodesTo, decode, fieldOp_of_selects_F000 h, Instr.mnemonic]

theorem decodesTo_of_selects_class8 (hr : r ∈ opcodeRowsClass8) (h : r.selects w = true) :
    DecodesTo w r.mnemonic := by
  fin_cases hr <;>
  · obtain ⟨op, sub⟩ := fields_of_selects_F00F h
    simp [DecodesTo, decode, op, decodeClass8, sub, Instr.mnemonic]

theorem decodesTo_of_selects_classEF (hr : r ∈ opcodeRowsClassEF) (h : r.selects w = true) :
    DecodesTo w r.mnemonic := by
  fin_cases hr <;>
  · obtain ⟨op, low⟩ := fields_of_selects_F0FF h
    simp [DecodesTo, decode, op, decodeClassE, decodeClassF, low, Instr.mnemonic]

theorem decodesTo_of_selects (hr : r ∈ opcodeMap) (h : r.selects w = true) :
    DecodesTo w r.mnemonic := by
  rw [opcodeMap, List.mem_append, List.mem_append] at hr
  obtain (plain | class8) | classEF := hr
  · exact decodesTo_of_selects_plain plain h
  · exact decodesTo_of_selects_class8 class8 h
  · exact decodesTo_of_selects_classEF classEF h

/-- The decoded instruction's word selects the row of its mnemonic, and there is one such row. -/
theorem selects_of_decodesTo (hr : r ∈ opcodeMap) (h : DecodesTo w r.mnemonic) : r.selects w = true := by
  obtain ⟨i, decodes, name⟩ := h
  obtain ⟨q, hq, qname, selects⟩ := exists_row_selects_wordWithY i (fieldY w)
  obtain rfl : q = r := eq_of_mnemonic_eq hq hr (qname.trans name)
  rwa [(word_of_decode decodes).2] at selects

end

/-- Settles O3: two rows that one word selects bear the mnemonic of the one instruction it decodes to. -/
theorem decodeSelectsTheOpcodeRow : Obligations.DecodeSelectsTheOpcodeRow := by
  unfold Obligations.DecodeSelectsTheOpcodeRow
  refine ⟨fun w r hr => ⟨decodesTo_of_selects hr, selects_of_decodesTo hr⟩, ?_⟩
  intro w r q hr hq selectsR selectsQ
  obtain ⟨i, hi, iname⟩ := decodesTo_of_selects hr selectsR
  obtain ⟨j, hj, jname⟩ := decodesTo_of_selects hq selectsQ
  obtain rfl : i = j := Option.some.inj (hi.symm.trans hj)
  exact eq_of_mnemonic_eq hr hq (iname.symm.trans jname)

/-! ### Unrecognised words -/

section
variable {w : Word}

theorem decodeClass8_eq_none_iff :
    decodeClass8 w = none ↔ fieldN w ∈ [0x8, 0x9, 0xA, 0xB, 0xC, 0xD, 0xF] := by
  have range := fieldN_lt w
  unfold decodeClass8
  generalize fieldN w = n at range ⊢
  interval_cases n <;> simp

theorem decodeClassE_eq_none_iff : decodeClassE w = none ↔ fieldNN w ∉ [0x9E#8, 0xA1#8] := by
  unfold decodeClassE
  split <;> simp_all [← BitVec.toNat_inj]

theorem decodeClassF_eq_none_iff : decodeClassF w = none ↔
    fieldNN w ∉ [0x07#8, 0x0A#8, 0x15#8, 0x18#8, 0x1E#8, 0x29#8, 0x33#8, 0x55#8, 0x65#8] := by
  unfold decodeClassF
  split <;> simp_all [← BitVec.toNat_inj]

end

/-- Settles O4, by op class: case `h_k` is class `k - 1`. -/
theorem unrecognisedWordsByClass : Obligations.UnrecognisedWordsByClass := by
  unfold Obligations.UnrecognisedWordsByClass
  intro w
  have range := fieldOp_lt w
  unfold decode
  split
  case h_1 op => simp [op, ite_eq_iff]
  case h_6 op | h_10 op => simp [op]
  case h_9 op => simp [op, decodeClass8_eq_none_iff]
  case h_15 op => simp [op, decodeClassE_eq_none_iff]
  case h_16 op => simp [op, decodeClassF_eq_none_iff]
  case h_2 op | h_3 op | h_4 op | h_5 op | h_7 op | h_8 op | h_11 op | h_12 op | h_13 op | h_14 op =>
    simp [op]
  case h_17 => interval_cases fieldOp w <;> contradiction

/-- Settles O6: the decode procedure on nine words. -/
theorem sampleWordsDecode : Obligations.SampleWordsDecode := by
  unfold Obligations.SampleWordsDecode
  decide

end Sys2Proof
end

section
/-! SUPPORT. The control transfer instructions, case by case (40_control_transfer.md): targets as numbers, a skip
decided by a proposition, the call stack under CALL and RET, and the frames of their updates. -/

namespace Sys2Proof.Machine

/-! ### Targets as numbers -/

/-- An encodable target keeps its value. -/
theorem zext16_toNat {nnn : Nat} (h : nnn < 4096) : (zext16 nnn).toNat = nnn := by
  rw [zext16, BitVec.toNat_ofNat, Nat.mod_eq_of_lt (by omega)]

/-- With an encodable offset the sum stays below 65536. -/
theorem offsetTarget_toNat (v0 : Byte) {nnn : Nat} (h : nnn < 4096) :
    (offsetTarget v0 nnn).toNat = v0.toNat + nnn := by
  have byteRange := v0.isLt
  rw [offsetTarget, BitVec.toNat_ofNat, Nat.mod_eq_of_lt (by omega)]

/-! ### Frames of two updates in a row -/

section
variable {ps qs : List Part} {s t u : State}

/-- Two steps with frames of their own change at most the parts of either. -/
theorem unchangedExcept.append (h : unchangedExcept ps s t) (h' : unchangedExcept qs t u) :
    unchangedExcept (ps ++ qs) s u :=
  (h.mono fun _ => List.mem_append_left qs).trans (h'.mono fun _ => List.mem_append_right ps)

end

theorem frame_push_setPc (s : State) (w target : Word) :
    unchangedExcept [.stack, .pc] s ((s.push w).setPc target) :=
  (frame_push s w).append (frame_setPc _ target)

theorem frame_pop_setPc (s : State) (target : Word) :
    unchangedExcept [.stack, .pc] s (s.pop.setPc target) :=
  (frame_pop s).append (frame_setPc _ target)

/-! ### Skips -/

/-- A skip whose test decides `p` moves `PC` by 4 or 2 as `p` says, and moves nothing else. -/
theorem skipIf_spec {c : Bool} {p : Prop} [Decidable p] (test : c = true ↔ p) (s : State) :
    ∃ t, skipIf c s = .next t ∧ t.pc = (if p then s.pc + 4 else s.pc + 2) ∧
      unchangedExcept [.pc] s t :=
  ⟨_, skipIf_eq c s, by simp [test], frame_setPc s _⟩

/-- Bytes are compared as unsigned numbers (40_control_transfer.md R126). -/
theorem byte_beq_iff (a b : Byte) : (a == b) = true ↔ a.toNat = b.toNat :=
  beq_iff_eq.trans BitVec.toNat_inj.symm

theorem byte_bne_iff (a b : Byte) : (a != b) = true ↔ a.toNat ≠ b.toNat :=
  bne_iff_ne.trans BitVec.toNat_inj.symm.not

/-! ### The call stack -/

@[simp] theorem State.stackEntry_setPc (s : State) (w : Word) (k : Nat) :
    (s.setPc w).stackEntry k = s.stackEntry k := rfl

@[simp] theorem State.stackEntry_pop (s : State) (k : Nat) : s.pop.stackEntry k = s.stackEntry k := rfl

section
variable {s : State}

theorem State.stackEntry_push_top (room : s.sp < Config.stackCapacity) (w : Word) :
    (s.push w).stackEntry s.sp = w := by
  rw [State.stackEntry_push s w s.sp (room.trans_le stackCapacity_bounds.2), if_pos rfl]

theorem State.stackEntry_push_other (room : s.sp < Config.stackCapacity) (w : Word) {k : Nat}
    (hk : k ≠ s.sp) : (s.push w).stackEntry k = s.stackEntry k := by
  rw [State.stackEntry_push s w k (room.trans_le stackCapacity_bounds.2), if_neg hk]

theorem exec_call_of_room (room : s.sp < Config.stackCapacity) (nnn : Nat) :
    exec (.call nnn) s = .next ((s.push (s.pc + 2)).setPc (zext16 nnn)) := if_neg room.not_ge

theorem exec_call_of_full (full : s.sp = Config.stackCapacity) (nnn : Nat) :
    exec (.call nnn) s = .next (s.setFault .stackOverflow) := if_pos full.ge

theorem exec_ret_of_entry (entry : 0 < s.sp) :
    exec .ret s = .next (s.pop.setPc (s.stackEntry (s.sp - 1))) := if_neg entry.ne'

theorem exec_ret_of_empty (empty : s.sp = 0) : exec .ret s = .next (s.setFault .stackUnderflow) :=
  if_pos empty

/-- After a CALL with room, RET goes to the address the CALL pushed. -/
theorem exec_ret_after_call (room : s.sp < Config.stackCapacity) (w target : Word) :
    exec .ret ((s.push w).setPc target) = .next (((s.push w).setPc target).pop.setPc w) := by
  rw [exec_ret_of_entry (Nat.succ_pos s.sp)]
  simp [State.stackEntry_push_top room]

end

/-! ### The control transfer obligations -/

/-- Settles O19, by whether the stack has room or is full. -/
theorem callPushesOrOverflows : Obligations.CallPushesOrOverflows := by
  unfold Obligations.CallPushesOrOverflows
  refine fun nnn s hn => ⟨fun room => ?_, fun full => ?_⟩
  · exact ⟨_, exec_call_of_room room nnn, State.stackEntry_push_top room _,
      fun _ => State.stackEntry_push_other room _, rfl, zext16_toNat hn, frame_push_setPc s _ _⟩
  · exact ⟨_, exec_call_of_full full nnn, rfl, frame_setFault s _⟩

/-- Settles O20, by whether the stack has an entry in use; it holds at any depth. -/
theorem retPopsOrUnderflows : Obligations.RetPopsOrUnderflows := by
  unfold Obligations.RetPopsOrUnderflows
  refine fun s _ => ⟨fun entry => ?_, fun empty => ?_⟩
  · exact ⟨_, exec_ret_of_entry entry, rfl, rfl, fun _ => rfl, frame_pop_setPc s _⟩
  · exact ⟨_, exec_ret_of_empty empty, rfl, frame_setFault s _⟩

/-- Settles O21: RET finds at the top what CALL pushed there, and the two frames compose. -/
theorem retAfterCallReturnsToTheNextInstruction :
    Obligations.RetAfterCallReturnsToTheNextInstruction := by
  unfold Obligations.RetAfterCallReturnsToTheNextInstruction
  intro nnn s room
  exact ⟨_, _, exec_call_of_room room nnn, exec_ret_after_call room _ _, rfl, rfl,
    State.stackEntry_push_top room _, fun _ => State.stackEntry_push_other room _,
    (frame_push_setPc s _ _).trans (frame_pop_setPc _ _)⟩

/-- Settles O17. -/
theorem jmpSetsPc : Obligations.JmpSetsPc := by
  unfold Obligations.JmpSetsPc
  intro nnn s hn
  exact ⟨s.setPc (zext16 nnn), rfl, zext16_toNat hn, frame_setPc s _⟩

/-- Settles O18: a byte and a 12-bit offset add up to less than 65536. -/
theorem jmpv0AddsRegisterZero : Obligations.Jmpv0AddsRegisterZero := by
  unfold Obligations.Jmpv0AddsRegisterZero
  intro nnn s hn
  exact ⟨s.setPc (offsetTarget (s.reg 0) nnn), rfl, offsetTarget_toNat _ hn, frame_setPc s _⟩

/-- Settles O22: each test decides a comparison of numbers. -/
theorem immediateSkips : Obligations.ImmediateSkips := by
  unfold Obligations.ImmediateSkips
  exact fun x nn s =>
    ⟨skipIf_spec (byte_beq_iff (s.reg x) nn) s, skipIf_spec (byte_bne_iff (s.reg x) nn) s⟩

/-- Settles O23: each test decides a comparison of numbers, `x = y` included. -/
theorem registerSkips : Obligations.RegisterSkips := by
  unfold Obligations.RegisterSkips
  exact fun x y s => ⟨skipIf_spec (byte_beq_iff (s.reg x) (s.reg y)) s,
    skipIf_spec (byte_bne_iff (s.reg x) (s.reg y)) s⟩

end Sys2Proof.Machine
end

section
/-! SUPPORT. The register and ALU instructions (41_alu.md): what the two shapes `assign` and `assignWithFlag`
leave, and each flag and result as a number. -/

namespace Sys2Proof.Machine

/-! ### The flags as numbers -/

theorem carryFlag_toNat (a b : Byte) :
    (carryFlag a b).toNat = if a.toNat + b.toNat > 255 then 1 else 0 :=
  apply_ite Bool.toNat _ true false

theorem noBorrowFlag_toNat (a b : Byte) :
    (noBorrowFlag a b).toNat = if a.toNat ≥ b.toNat then 1 else 0 :=
  apply_ite Bool.toNat _ true false

theorem lowBitFlag_toNat (a : Byte) : (lowBitFlag a).toNat = a.toNat % 2 := by
  rw [lowBitFlag, ← BitVec.testBit_toNat, Nat.toNat_testBit, Nat.pow_zero, Nat.div_one]

/-- Bit 7 is the whole quotient by 128, since a byte is below 256. -/
theorem highBitFlag_toNat (a : Byte) : (highBitFlag a).toNat = a.toNat / 128 := by
  have byteRange := a.isLt
  rw [highBitFlag, ← BitVec.testBit_toNat, Nat.toNat_testBit]
  omega

/-! ### The results as numbers -/

/-- A difference of bytes, with the borrow added to the minuend. -/
theorem byte_sub_toNat (a b : Byte) : (a - b).toNat = (a.toNat + 256 - b.toNat) % 256 := by
  have byteRange := b.isLt
  rw [BitVec.toNat_sub]
  omega

theorem byte_shiftRight_toNat (a : Byte) : (a >>> 1).toNat = a.toNat / 2 := by
  rw [BitVec.toNat_ushiftRight, Nat.shiftRight_one]

theorem byte_shiftLeft_toNat (a : Byte) : (a <<< 1).toNat = a.toNat * 2 % 256 := by
  rw [BitVec.toNat_shiftLeft, Nat.shiftLeft_eq, Nat.pow_one]

/-- A masked byte has no bit outside its mask (41_alu.md R162). -/
theorem byte_masked (a mask : Byte) : a &&& mask &&& ~~~mask = 0 := by
  rw [BitVec.and_assoc, BitVec.and_not_self]
  exact BitVec.and_zero

/-! ### The two shapes -/

section
variable (x : Reg) (s : State)

theorem assign_spec (b : Byte) :
    ∃ t, assign x b s = .next t ∧ t.reg x = b ∧ t.pc = s.pc + 2 ∧
      unchangedExcept [.reg x, .pc] s t :=
  ⟨_, rfl, (State.reg_setReg s x x b).trans (if_pos rfl), rfl,
    (frame_setReg s x b).append (frame_setPc _ _)⟩

/-- `assign`, with its byte given as a number. -/
theorem assign_toNat {b : Byte} {n : Nat} (value : b.toNat = n) :
    ∃ t, assign x b s = .next t ∧ (t.reg x).toNat = n ∧ t.pc = s.pc + 2 ∧
      unchangedExcept [.reg x, .pc] s t := by
  obtain ⟨t, next, rfl, rest⟩ := assign_spec x s b
  exact ⟨t, next, value, rest⟩

/-- `assign`, with its byte given bit by bit. -/
theorem assign_bits {b : Byte} {bit : Nat → Bool} (value : ∀ k, b.getLsbD k = bit k) :
    ∃ t, assign x b s = .next t ∧ (∀ k < 8, (t.reg x).getLsbD k = bit k) ∧ t.pc = s.pc + 2 ∧
      unchangedExcept [.reg x, .pc] s t := by
  obtain ⟨t, next, rfl, rest⟩ := assign_spec x s b
  exact ⟨t, next, fun k _ => value k, rest⟩

/-- The flag is written last: it stands in `VF` whatever `x` is, and the byte stands in `V[x]` unless that is
`VF` (10_state.md R23). -/
theorem assignWithFlag_spec {b : Byte} {f : Bool} {n m : Nat} (value : b.toNat = n) (flag : f.toNat = m) :
    ∃ t, assignWithFlag x b f s = .next t ∧ (x ≠ regVF → (t.reg x).toNat = n) ∧
      (t.reg regVF).toNat = m ∧ t.pc = s.pc + 2 ∧ unchangedExcept [.reg x, .reg regVF, .pc] s t := by
  refine ⟨_, rfl, fun other => ?_, ?_, rfl,
    ((frame_setReg s x b).append (frame_setReg _ regVF _)).append (frame_setPc _ _)⟩
  · rw [State.reg_nextInstr, State.reg_setFlag, if_neg other, State.reg_setReg, if_pos rfl, value]
  · rw [State.reg_nextInstr, State.reg_setFlag, if_pos rfl, ← flag]
    cases f <;> rfl

end

/-! ### The register and ALU obligations -/

/-- Settles O24. -/
theorem immediateResults : Obligations.ImmediateResults := by
  unfold Obligations.ImmediateResults
  exact fun x nn s => ⟨assign_spec x s nn, assign_toNat x s (BitVec.toNat_add _ _)⟩

/-- Settles O25. -/
theorem copyAndLogicResults : Obligations.CopyAndLogicResults := by
  unfold Obligations.CopyAndLogicResults
  exact fun x y s => ⟨assign_spec x s (s.reg y), assign_bits x s fun _ => BitVec.getLsbD_or,
    assign_bits x s fun _ => BitVec.getLsbD_and, assign_bits x s fun _ => BitVec.getLsbD_xor⟩

/-- Settles O26. -/
theorem addResultAndCarry : Obligations.AddResultAndCarry := by
  unfold Obligations.AddResultAndCarry
  exact fun x y s => assignWithFlag_spec x s (BitVec.toNat_add _ _) (carryFlag_toNat _ _)

/-- Settles O27: RSUB is SUB with the operands exchanged. -/
theorem subtractionResultsAndNoBorrow : Obligations.SubtractionResultsAndNoBorrow := by
  unfold Obligations.SubtractionResultsAndNoBorrow
  exact fun x y s => ⟨assignWithFlag_spec x s (byte_sub_toNat _ _) (noBorrowFlag_toNat _ _),
    assignWithFlag_spec x s (byte_sub_toNat _ _) (noBorrowFlag_toNat _ _)⟩

/-- Settles O28. -/
theorem shiftResultsAndBitOut : Obligations.ShiftResultsAndBitOut := by
  unfold Obligations.ShiftResultsAndBitOut
  exact fun x s => ⟨assignWithFlag_spec x s (byte_shiftRight_toNat _) (lowBitFlag_toNat _),
    assignWithFlag_spec x s (byte_shiftLeft_toNat _) (highBitFlag_toNat _)⟩

/-- Settles O29: RAND is an assignment in the state that has counted the draw. -/
theorem randMasksTheFreeByte : Obligations.RandMasksTheFreeByte := by
  unfold Obligations.RandMasksTheFreeByte
  intro x nn s
  obtain ⟨t, next, value, pc, frame⟩ := assign_spec x s.countDraw (Config.rnd s.draws &&& nn)
  refine ⟨t, next, value, ?_, frame .draws (by simp), pc, ?_⟩
  · rw [value, byte_masked]
  · exact ((frame_countDraw s).append frame).mono (by simp)

end Sys2Proof.Machine
end

section
/-! SUPPORT. The index register and memory instructions (42_index_memory.md): values of `I` as numbers, the
range test that BCD, STREGS and LDREGS share, and what a store from `I` and a load from `I` leave. -/

namespace Sys2Proof.Machine

/-! ### The index register as a number -/

/-- Five times a byte fits 16 bits. -/
theorem glyphAddress_toNat (b : Byte) : (glyphAddress b).toNat = b.toNat * 5 := by
  have byteRange := b.isLt
  rw [glyphAddress, BitVec.toNat_ofNat, Nat.mod_eq_of_lt (by omega)]

theorem indexSum_toNat (i : Word) (b : Byte) : (indexSum i b).toNat = (i.toNat + b.toNat) % 65536 :=
  BitVec.toNat_ofNat ..

theorem indexFlag_toNat (i : Word) (b : Byte) :
    (indexFlag i b).toNat = if i.toNat + b.toNat > 0x0FFF then 1 else 0 :=
  apply_ite Bool.toNat _ true false

theorem State.reg_setFlag_regVF_toNat (s : State) (f : Bool) :
    ((s.setFlag f).reg regVF).toNat = f.toNat := by
  rw [State.reg_setFlag, if_pos rfl]
  cases f <;> rfl

/-- An instruction that loads `I` with a word of known value. -/
theorem done_setIndex_spec (s : State) {w : Word} {n : Nat} (value : w.toNat = n) :
    ∃ t, done (s.setIndex w) = .next t ∧ t.index.toNat = n ∧ t.pc = s.pc + 2 ∧
      unchangedExcept [.index, .pc] s t :=
  ⟨_, rfl, value, rfl, (frame_setIndex s w).append (frame_setPc _ _)⟩

/-! ### The digits of a byte -/

/-- Each decimal digit of a byte is itself a byte. -/
theorem decimalDigits_toNat (b : Byte) :
    ((decimalDigits b).getD 0 0).toNat = b.toNat / 100 ∧
    ((decimalDigits b).getD 1 0).toNat = b.toNat / 10 % 10 ∧
    ((decimalDigits b).getD 2 0).toNat = b.toNat % 10 := by
  have byteRange := b.isLt
  refine ⟨?_, ?_, ?_⟩ <;> exact (BitVec.toNat_ofNat ..).trans (Nat.mod_eq_of_lt (by omega))

/-! ### The range test -/

section
variable {s : State}

theorem doneUnless_of_inRange {count : Nat} (range : s.base + count ≤ memSize) (t : State) :
    doneUnless (rangeFault s.base count) s t = .next t.nextInstr := by
  rw [(rangeFault_eq_none ..).mpr (.inr range)]; rfl

/-- The last byte of the range outside memory: FAULT names the lowest address outside, and nothing else
changes (R187). -/
theorem doneUnless_of_outside {last : Nat} (outside : memSize ≤ s.base + last) (t : State) :
    ∃ u, doneUnless (rangeFault s.base (last + 1)) s t = .next u ∧
      u.fault = some (.memoryOutOfRange (max s.base memSize)) ∧ unchangedExcept [.fault] s u := by
  rw [rangeFault_eq_some _ _ last.succ_pos (by omega)]
  exact ⟨_, rfl, rfl, frame_setFault s _⟩

/-! ### Storing from `I` and loading from `I` -/

theorem storeFromIndex_spec (wf : s.memWf) {bs : List Byte} (range : s.base + bs.length ≤ memSize) :
    ∃ t, storeFromIndex bs s = .next t ∧
      (∀ k < bs.length, t.byteAt (s.base + k) = bs.getD k 0) ∧
      (∀ a, a < s.base ∨ s.base + bs.length ≤ a → t.byteAt a = s.byteAt a) ∧
      t.pc = s.pc + 2 ∧ unchangedExcept [.memory, .pc] s t := by
  refine ⟨_, storeFromIndex_of_inRange range, fun k hk => ?_, fun a ha => ?_, rfl,
    (frame_storeBytes s _ _).append (frame_setPc _ _)⟩
  · rw [State.byteAt_nextInstr, State.byteAt_storeBytes s _ _ _ wf range, if_pos (by omega),
      Nat.add_sub_cancel_left]
  · rw [State.byteAt_nextInstr, State.byteAt_storeBytes s _ _ _ wf range, if_neg (by omega)]

theorem exec_ldregs_spec (x : Reg) (range : s.base + x.val < memSize) :
    ∃ t, exec (.ldregs x) s = .next t ∧
      (∀ k : Reg, k ≤ x → t.reg k = s.byteAt (s.base + k.val)) ∧
      t.pc = s.pc + 2 ∧ unchangedExcept (.pc :: regsUpTo x) s t := by
  refine ⟨_, doneUnless_of_inRange range _, fun k hk => ?_, rfl, ?_⟩
  · rw [State.reg_nextInstr, State.reg_setRegs_loadedRegs, if_pos hk]
  · exact ((frame_loadRegs s x).append (frame_setPc _ _)).mono (by simp [or_comm])

end

/-! ### The index and memory obligations -/

/-- Settles O30. -/
theorem indexIsLoaded : Obligations.IndexIsLoaded := by
  unfold Obligations.IndexIsLoaded
  exact ⟨fun nnn s hn => done_setIndex_spec s (zext16_toNat hn),
    fun x s => done_setIndex_spec s (glyphAddress_toNat _)⟩

/-- Settles O31: the flag is written last, from the operands of before, so `x` may be 15. -/
theorem addidxSumAndFlag : Obligations.AddidxSumAndFlag := by
  unfold Obligations.AddidxSumAndFlag
  intro x s
  exact ⟨_, rfl, indexSum_toNat _ _, (State.reg_setFlag_regVF_toNat _ _).trans (indexFlag_toNat _ _), rfl,
    ((frame_setIndex s _).append (frame_setReg _ regVF _)).append (frame_setPc _ _)⟩

/-- Settles O32: the store of three digits. -/
theorem bcdStoresDigitsOrRaises : Obligations.BcdStoresDigitsOrRaises := by
  unfold Obligations.BcdStoresDigitsOrRaises
  refine fun x s wf => ⟨fun range => ?_, fun outside => doneUnless_of_outside outside _⟩
  obtain ⟨t, next, stored, others, rest⟩ :=
    storeFromIndex_spec wf (bs := decimalDigits (s.reg x)) (Nat.succ_le_of_lt range)
  have digit : ∀ k < 3, (t.byteAt (s.base + k)).toNat = ((decimalDigits (s.reg x)).getD k 0).toNat :=
    fun k hk => congrArg BitVec.toNat (stored k hk)
  obtain ⟨hundreds, tens, ones⟩ := decimalDigits_toNat (s.reg x)
  exact ⟨t, next, (digit 0 (by decide)).trans hundreds, (digit 1 (by decide)).trans tens,
    (digit 2 (by decide)).trans ones, others, rest⟩

/-- Settles O33: the store of the block `V[0]` to `V[x]`. -/
theorem stregsStoresBlockOrRaises : Obligations.StregsStoresBlockOrRaises := by
  unfold Obligations.StregsStoresBlockOrRaises
  refine fun x s wf => ⟨fun range => ?_, fun outside => ?_⟩
  · have length := s.firstRegs_length x
    obtain ⟨t, next, stored, others, rest⟩ :=
      storeFromIndex_spec wf (bs := s.firstRegs x) (by rw [length]; exact range)
    refine ⟨t, next, fun k hk => ?_, fun a ha => others a (by omega), rest⟩
    have inBlock : k.val < (s.firstRegs x).length := by rw [length]; exact Nat.lt_succ_of_le hk
    exact (stored k inBlock).trans (s.firstRegs_getD x k hk)
  · have raises := doneUnless_of_outside outside (s.storeBytes s.base (s.firstRegs x))
    rwa [← s.firstRegs_length x] at raises

/-- Settles O34. -/
theorem ldregsLoadsBlockOrRaises : Obligations.LdregsLoadsBlockOrRaises := by
  unfold Obligations.LdregsLoadsBlockOrRaises
  exact fun x s => ⟨exec_ldregs_spec x, fun outside => doneUnless_of_outside outside _⟩

/-- Settles O35: LDREGS reads the bytes that STREGS stored, since `I` and memory are as STREGS left them. -/
theorem ldregsUndoesStregs : Obligations.LdregsUndoesStregs := by
  unfold Obligations.LdregsUndoesStregs
  intro x s t v wf range stores
  obtain rfl : (s.storeBytes s.base (s.firstRegs x)).nextInstr = t := by
    rw [exec_stregs_of_inRange range] at stores
    exact Host.Outcome.next.inj stores
  obtain ⟨u, loads, loaded, -⟩ :=
    exec_ldregs_spec (s := { (s.storeBytes s.base (s.firstRegs x)).nextInstr with v := v }) x range
  exact ⟨u, loads, fun k hk => (loaded k hk).trans (State.byteAt_storeBytes_firstRegs wf range hk)⟩

end Sys2Proof.Machine
end

section
/-! SUPPORT. The display instructions (43_display.md): which cells a scan of sprite pixels toggles. Each pixel,
each row and the whole sprite are described by one relation, `Toggled`, which composes over scans whose cells
are apart (R197). -/

namespace Sys2Proof.Machine

/-! ### Where two pixels land -/

/-- The cell of a pixel is its coordinates reduced, and with WRAP = 0 the coordinates themselves. -/
theorem landsOn_coordinates {wrap : Bool} {x y : Nat} {r : Fin 32} {c : Fin 64} (h : landsOn wrap x y r c) :
    x % 64 = c.val ∧ y % 32 = r.val ∧ (wrap = false → x = c.val ∧ y = r.val) := by
  unfold landsOn at h
  split at h
  · obtain ⟨rfl, rfl⟩ := h
    exact ⟨Nat.mod_eq_of_lt c.isLt, Nat.mod_eq_of_lt r.isLt, fun _ => ⟨rfl, rfl⟩⟩
  · obtain ⟨wraps, column, row⟩ := h
    exact ⟨column, row, fun clips => absurd wraps (by simp [clips])⟩

/-- A pixel lands on one cell at most. -/
theorem landsOn_unique {wrap : Bool} {x y : Nat} {r r' : Fin 32} {c c' : Fin 64}
    (h : landsOn wrap x y r c) (h' : landsOn wrap x y r' c') : r' = r ∧ c' = c := by
  obtain ⟨column, row, -⟩ := landsOn_coordinates h
  obtain ⟨column', row', -⟩ := landsOn_coordinates h'
  exact ⟨Fin.ext (row'.symm.trans row), Fin.ext (column'.symm.trans column)⟩

/-! ### What a scan of pixels toggles -/

/-- From `p` to `q`, each a framebuffer and whether a collision has happened, exactly the `covered` cells were
toggled, and a covered cell that was set is a collision. -/
structure Toggled (covered : Fin 32 → Fin 64 → Prop) (p q : Framebuffer × Bool) : Prop where
  flipped : ∀ r c, covered r c → q.1.cell r c = !p.1.cell r c
  kept : ∀ r c, ¬ covered r c → q.1.cell r c = p.1.cell r c
  collision : q.2 = true ↔ p.2 = true ∨ ∃ r c, covered r c ∧ p.1.cell r c = true

section
variable {covered covered' : Fin 32 → Fin 64 → Prop} {p q o : Framebuffer × Bool}

theorem toggled_of_none (nothing : ∀ r c, ¬ covered r c) : Toggled covered p p where
  flipped r c h := absurd h (nothing r c)
  kept _ _ _ := rfl
  collision := by simp [nothing]

/-- A scan that starts without a collision ends with one exactly when a covered cell was set. -/
theorem Toggled.collision_of_fresh {fb : Framebuffer} (h : Toggled covered (fb, false) q) :
    q.2 = true ↔ ∃ r c, covered r c ∧ fb.cell r c = true :=
  h.collision.trans (or_iff_right Bool.false_ne_true)

theorem Toggled.no_collision_of_fresh {fb : Framebuffer} (h : Toggled covered (fb, false) q) :
    q.2 = false ↔ ∀ r c, covered r c → fb.cell r c = false := by
  rw [← Bool.not_eq_true, h.collision_of_fresh]
  simp only [not_exists, not_and, Bool.not_eq_true]

/-- Two scans in a row whose cells are apart: the second finds its cells as the first found them. -/
theorem Toggled.trans (first : Toggled covered p q) (second : Toggled covered' q o)
    (apart : ∀ r c, covered r c → ¬ covered' r c) :
    Toggled (fun r c => covered r c ∨ covered' r c) p o where
  flipped r c h := by
    rcases h with h | h
    · rw [second.kept r c (apart r c h), first.flipped r c h]
    · rw [second.flipped r c h, first.kept r c fun h' => apart r c h' h]
  kept r c h := by
    obtain ⟨h, h'⟩ := not_or.mp h
    rw [second.kept r c h', first.kept r c h]
  collision := by
    have found : ∀ r c, covered' r c → q.1.cell r c = p.1.cell r c :=
      fun r c h => first.kept r c fun h' => apart r c h' h
    have same : (∃ r c, covered' r c ∧ q.1.cell r c = true) ↔ ∃ r c, covered' r c ∧ p.1.cell r c = true :=
      exists₂_congr fun r c => and_congr_right fun h => by rw [found r c h]
    rw [second.collision, first.collision, same, or_assoc]
    simp only [or_and_right, exists_or]

end

/-- A scan over 0 to `n - 1` each step of which toggles cells of its own. -/
theorem toggled_foldl_range {scan : Framebuffer × Bool → Nat → Framebuffer × Bool}
    {covered : Nat → Fin 32 → Fin 64 → Prop} (each : ∀ i p, Toggled (covered i) p (scan p i)) (n : Nat)
    (apart : ∀ i j, i < j → j < n → ∀ r c, covered i r c → ¬ covered j r c) (p : Framebuffer × Bool) :
    Toggled (fun r c => ∃ i < n, covered i r c) p ((List.range n).foldl scan p) := by
  induction n with
  | zero => exact toggled_of_none (by simp)
  | succ n ih =>
    have before := ih fun i j hij hj => apart i j hij (Nat.lt_succ_of_lt hj)
    have all := before.trans (each n _) fun r c ⟨i, hi, h⟩ => apart i n hi (Nat.lt_succ_self n) r c h
    simpa only [List.range_succ, List.foldl_append, List.foldl_cons, List.foldl_nil,
      Nat.exists_lt_succ_right] using all

/-! ### One pixel, one row, the sprite -/

theorem drawPixel_toggled (wrap : Bool) (x y : Nat) (p : Framebuffer × Bool) :
    Toggled (landsOn wrap x y) p (drawPixel wrap x y p) := by
  rcases drawPixel_cases wrap x y p with ⟨r, c, lands, drawn⟩ | ⟨nothing, drawn⟩
  · have cell : ∀ r' c', landsOn wrap x y r' c' ↔ r' = r ∧ c' = c :=
      fun r' c' => ⟨landsOn_unique lands, fun ⟨hr, hc⟩ => hr ▸ hc ▸ lands⟩
    rw [drawn]
    constructor <;> simp +contextual [cell, Framebuffer.cell_toggle]
  · rw [drawn]
    exact toggled_of_none nothing

/-- The set pixels of one sprite byte: eight columns are less than 64, so they are apart. -/
theorem drawRow_toggled (wrap : Bool) (x0 y : Nat) (b : Byte) (p : Framebuffer × Bool) :
    Toggled (fun r c => ∃ col < 8, b.getLsbD (7 - col) = true ∧ landsOn wrap (x0 + col) y r c) p
      (drawRow wrap x0 y b p) := by
  refine toggled_foldl_range
    (covered := fun col r c => b.getLsbD (7 - col) = true ∧ landsOn wrap (x0 + col) y r c)
    (fun col p => ?_) 8 (fun i j hij hj r c ⟨_, lands⟩ ⟨_, lands'⟩ => ?_) p
  · by_cases bit : b.getLsbD (7 - col) = true
    · simpa only [bit, if_true, true_and] using drawPixel_toggled wrap (x0 + col) y p
    · rw [if_neg bit]
      exact toggled_of_none fun _ _ h => bit h.1
  · obtain ⟨column, -⟩ := landsOn_coordinates lands
    obtain ⟨column', -⟩ := landsOn_coordinates lands'
    omega

/-- The rows of a sprite in memory are drawn in the order of their addresses. -/
theorem drawRows_readBytes (wrap : Bool) (x0 y : Nat) (f : Font) (m : Memory) (a n : Nat)
    (p : Framebuffer × Bool) :
    drawRows wrap x0 y (m.readBytes f a n) p =
      (List.range n).foldl (fun p row => drawRow wrap x0 (y + row) (m.read f (a + row)) p) p := by
  induction n generalizing y a p with
  | zero => rfl
  | succ n ih =>
    rw [Memory.readBytes, drawRows, ih, List.range_succ_eq_map, List.foldl_cons, List.foldl_map]
    simp only [Nat.add_succ, Nat.succ_add, Nat.add_zero]

/-- DRAW toggles the covered cells. Up to 32 rows, or any number under the clip policy, are apart. -/
theorem State.rasterize_toggled (s : State) (x y : Reg) {n : Nat} (few : n ≤ 32 ∨ s.wrap = false) :
    Toggled (s.covers x y n) (s.fb, false) (s.rasterize x y n) := by
  rw [State.rasterize, State.sprite, drawRows_readBytes]
  refine toggled_foldl_range (fun row => drawRow_toggled _ _ _ _) n
    (fun i j hij hj r c ⟨_, _, _, lands⟩ ⟨_, _, _, lands'⟩ => ?_) _
  obtain ⟨-, row, clipped⟩ := landsOn_coordinates lands
  obtain ⟨-, row', clipped'⟩ := landsOn_coordinates lands'
  rcases few with few | clips
  · omega
  · have same := (clipped clips).2.trans (clipped' clips).2.symm
    omega

/-! ### The flag as a bit -/

theorem State.reg_setFlag_eq_one_iff (s : State) (f : Bool) : (s.setFlag f).reg regVF = 1 ↔ f = true := by
  rw [State.reg_setFlag, if_pos rfl]
  cases f <;> decide

theorem State.reg_setFlag_eq_zero_iff (s : State) (f : Bool) : (s.setFlag f).reg regVF = 0 ↔ f = false := by
  rw [State.reg_setFlag, if_pos rfl]
  cases f <;> decide

/-! ### DRAW with the sprite in memory -/

section
variable {s t : State} {x y : Reg} {n : Nat}

theorem exec_draw_spec (few : n ≤ 32 ∨ s.wrap = false) (range : n = 0 ∨ s.base + n ≤ memSize) :
    ∃ t, exec (.draw x y n) s = .next t ∧
      (∀ r c, s.covers x y n r c → t.fb.cell r c = !s.fb.cell r c) ∧
      (∀ r c, ¬ s.covers x y n r c → t.fb.cell r c = s.fb.cell r c) ∧
      (t.reg 15 = 1 ↔ ∃ r c, s.covers x y n r c ∧ s.fb.cell r c = true) ∧
      (t.reg 15 = 0 ↔ ∀ r c, s.covers x y n r c → s.fb.cell r c = false) ∧
      t.redraw = true ∧ t.pc = s.pc + 2 ∧
      unchangedExcept [.framebuffer, .reg 15, .redraw, .pc] s t := by
  have completes : exec (.draw x y n) s =
      .next ((s.display (s.rasterize x y n).1).setFlag (s.rasterize x y n).2).nextInstr := by
    rw [exec, execDraw, (rangeFault_eq_none ..).mpr range]; rfl
  have toggled := s.rasterize_toggled x y few
  refine ⟨_, completes, toggled.flipped, toggled.kept, ?_, ?_, rfl, rfl, ?_⟩
  · rw [← toggled.collision_of_fresh]
    exact State.reg_setFlag_eq_one_iff _ _
  · rw [← toggled.no_collision_of_fresh]
    exact State.reg_setFlag_eq_zero_iff _ _
  · have frame := ((frame_display s (s.rasterize x y n).1).append
      (frame_setReg _ regVF (if (s.rasterize x y n).2 then 1 else 0))).append (frame_setPc _ (s.pc + 2))
    exact frame.mono (by simp [regVF])

/-- A DRAW that covers no cell resets VF and sets REDRAW (R198). -/
theorem exec_draw_of_none_covered (nothing : ∀ r c, ¬ s.covers x y n r c) (few : n ≤ 32 ∨ s.wrap = false)
    (range : n = 0 ∨ s.base + n ≤ memSize) :
    ∃ t, exec (.draw x y n) s = .next t ∧ t.reg 15 = 0 ∧ t.redraw = true ∧ t.pc = s.pc + 2 ∧
      unchangedExcept [.reg 15, .redraw, .pc] s t := by
  obtain ⟨t, next, -, kept, -, flagZero, redraw, pc, frame⟩ := exec_draw_spec (x := x) (y := y) few range
  refine ⟨t, next, flagZero.mpr fun r c h => absurd h (nothing r c), redraw, pc, fun p hp => ?_⟩
  by_cases isFramebuffer : p = .framebuffer
  · subst isFramebuffer
    exact fun r c => kept r c (nothing r c)
  · exact frame p (by simp_all)

/-- The cells that a sprite covers are the same after a DRAW whose place VF does not hold. -/
theorem covers_of_draw_frame (frame : unchangedExcept [.framebuffer, .reg 15, .redraw, .pc] s t)
    (hx : x ≠ 15) (hy : y ≠ 15) (r : Fin 32) (c : Fin 64) : t.covers x y n r c ↔ s.covers x y n r c := by
  have column : t.reg x = s.reg x := frame (.reg x) (by simpa using hx)
  have row : t.reg y = s.reg y := frame (.reg y) (by simpa using hy)
  have bytes : ∀ a, t.byteAt a = s.byteAt a := frame .memory (by simp)
  have index : t.index = s.index := frame .index (by simp)
  have wrap : t.wrap = s.wrap := frame .wrap (by simp)
  simp only [State.covers, State.base, column, row, bytes, index, wrap]

/-- With WRAP = 0 no pixel is left of or above its origin, so none of an origin outside is inside (R196). -/
theorem not_covers_of_clipped_origin (clips : s.wrap = false)
    (outside : 64 ≤ (s.reg x).toNat ∨ 32 ≤ (s.reg y).toNat) (r : Fin 32) (c : Fin 64) :
    ¬ s.covers x y n r c := by
  rintro ⟨row, _, col, _, _, lands⟩
  obtain ⟨-, -, place⟩ := landsOn_coordinates lands
  obtain ⟨column, line⟩ := place clips
  omega

theorem not_covers_of_no_rows (r : Fin 32) (c : Fin 64) : ¬ s.covers x y 0 r c := by
  rintro ⟨row, h, _⟩
  exact Nat.not_lt_zero row h

end

/-! ### The display obligations -/

/-- Settles O39. -/
theorem drawTogglesCoveredCells : Obligations.DrawTogglesCoveredCells := by
  unfold Obligations.DrawTogglesCoveredCells
  refine fun x y n s hn => ⟨fun range => ?_, fun ⟨rows, outside⟩ => ?_⟩
  · obtain ⟨t, next, flipped, kept, flagOne, flagZero, rest⟩ :=
      exec_draw_spec (s := s) (x := x) (y := y) (n := n) (.inl (by omega)) (by unfold memSize; omega)
    exact ⟨t, next, flipped, kept, flagOne.mpr, flagZero.mpr, rest⟩
  · obtain ⟨last, rfl⟩ := Nat.exists_eq_add_one_of_ne_zero rows.ne'
    exact doneUnless_of_outside outside _

/-- Settles O40: the second DRAW covers the same cells, and finds each of them toggled. -/
theorem drawTwiceRestoresTheFramebuffer : Obligations.DrawTwiceRestoresTheFramebuffer := by
  unfold Obligations.DrawTwiceRestoresTheFramebuffer
  intro x y n s hn hx hy range
  obtain ⟨t, next, flipped, kept, -, -, -, -, frame⟩ :=
    exec_draw_spec (s := s) (x := x) (y := y) (n := n) (.inl (by omega)) (.inr range)
  have place := covers_of_draw_frame (n := n) frame hx hy
  have index : t.index = s.index := frame .index (by simp)
  obtain ⟨u, next', flipped', kept', flagOne, -⟩ :=
    exec_draw_spec (s := t) (x := x) (y := y) (n := n) (.inl (by omega))
      (.inr (by rw [State.base, index]; exact range))
  refine ⟨t, u, next, next', fun r c => ?_, ?_⟩
  · by_cases covered : s.covers x y n r c
    · calc u.fb.cell r c = !t.fb.cell r c := flipped' r c ((place r c).mpr covered)
        _ = !!s.fb.cell r c := congrArg _ (flipped r c covered)
        _ = s.fb.cell r c := Bool.not_not _
    · exact (kept' r c (mt (place r c).mp covered)).trans (kept r c covered)
  · refine flagOne.trans (exists₂_congr fun r c => ?_)
    rw [place]
    exact and_congr_right fun covered => by rw [flipped r c covered, Bool.not_eq_true']

/-- Settles O41. -/
theorem clippedOriginDrawsNothing : Obligations.ClippedOriginDrawsNothing := by
  unfold Obligations.ClippedOriginDrawsNothing
  intro x y n s clips outside range
  obtain ⟨t, next, flag, redraw, -, frame⟩ :=
    exec_draw_of_none_covered (n := n) (not_covers_of_clipped_origin clips outside) (.inr clips)
      (by unfold memSize; omega)
  exact ⟨t, next, flag, redraw, frame⟩

/-- Settles O38. -/
theorem clsClearsEveryCell : Obligations.ClsClearsEveryCell := by
  unfold Obligations.ClsClearsEveryCell
  exact fun s => ⟨_, rfl, Framebuffer.cell_clear, rfl, rfl,
    (frame_display s Framebuffer.clear).append (frame_setPc _ _)⟩

/-- Settles O42. -/
theorem drawOfNoRows : Obligations.DrawOfNoRows := by
  unfold Obligations.DrawOfNoRows
  exact fun x y s => exec_draw_of_none_covered not_covers_of_no_rows (.inl (Nat.zero_le _)) (.inl rfl)

end Sys2Proof.Machine
end

section
/-! SUPPORT. The keypad and timer instructions (44_keypad_timers.md): which key a byte names, which key WAITKEY
finds, and the spec of a test of a key. -/

namespace Sys2Proof.Machine

/-! ### The key a byte names -/

section
variable {s : State}

/-- A byte in 0 to 15 names the key of its number. -/
theorem State.keyAt_of_eq {b : Byte} {k : Fin 16} (names : b.toNat = k.val) :
    s.keyAt b = some s.keys[k] := by
  rw [State.keyAt, names]
  exact Vector.getElem?_eq_getElem k.isLt

/-- A byte above 15 names no key (R224). -/
theorem State.keyAt_of_above {b : Byte} (above : 15 < b.toNat) : s.keyAt b = none :=
  Vector.getElem?_eq_none above

/-- With a key to test, SKKEY and SKNKEY move `PC` by 4 when the key is as wanted, else by 2. -/
theorem skipOnKey_spec {x : Reg} {k : Fin 16} (names : (s.reg x).toNat = k.val) (wanted : Bool) :
    ∃ t, skipOnKey x wanted s = .next t ∧
      t.pc = (if s.keys[k] = wanted then s.pc + 4 else s.pc + 2) ∧ unchangedExcept [.pc] s t := by
  rw [skipOnKey_eq_skipIf (State.keyAt_of_eq names)]
  exact skipIf_spec beq_iff_eq s

/-- With no key to test, SKKEY and SKNKEY raise (D8). -/
theorem skipOnKey_of_above {x : Reg} (above : 15 < (s.reg x).toNat) (wanted : Bool) :
    ∃ t, skipOnKey x wanted s = .next t ∧ t.fault = some (.keyIndexOutOfRange (s.reg x)) ∧
      unchangedExcept [.fault] s t :=
  ⟨_, skipOnKey_eq_raise (State.keyAt_of_above above), rfl, frame_setFault s _⟩

end

/-! ### The key WAITKEY finds -/

/-- A pressed key above which none is pressed is the one found: the one found is pressed, so it is not higher, and
none higher than it is pressed, so it is not lower. -/
theorem highestKey_of_highest {keys : Vector Bool 16} {k : Fin 16} (pressed : keys[k] = true)
    (highest : ∀ j : Fin 16, k < j → keys[j] = false) : highestKey keys = some k := by
  cases found : highestKey keys with
  | none => exact absurd pressed (by simp [(highestKey_eq_none_iff keys).mp found k])
  | some j =>
    obtain ⟨jPressed, jHighest⟩ := highestKey_eq_some keys j found
    rcases lt_trichotomy k j with below | rfl | above
    · exact absurd jPressed (by simp [highest j below])
    · rfl
    · exact absurd pressed (by simp [jHighest k above])

/-- A key's index fits a byte. -/
theorem keyIndex_toNat (k : Fin 16) : (BitVec.ofNat 8 k.val).toNat = k.val := by
  rw [BitVec.toNat_ofNat, Nat.mod_eq_of_lt (by omega)]

/-! ### The keypad and timer obligations -/

/-- Settles O44, by whether a key is found: none when none is pressed, and else the highest. -/
theorem waitkeyWaitsOrTakesTheHighestKey : Obligations.WaitkeyWaitsOrTakesTheHighestKey := by
  unfold Obligations.WaitkeyWaitsOrTakesTheHighestKey
  refine fun x s => ⟨fun nonePressed => ?_, fun k pressed highest => ?_⟩
  · exact execWaitkey_eq_next ((highestKey_eq_none_iff s.keys).mpr nonePressed)
  · have takes : exec (.waitkey x) s = assign x (BitVec.ofNat 8 k.val) s :=
      execWaitkey_eq_done (highestKey_of_highest pressed highest)
    rw [takes]
    exact assign_toNat x s (keyIndex_toNat k)

/-- Settles O43, by whether `V[X]` names a key. -/
theorem keySkipsOrRaise : Obligations.KeySkipsOrRaise := by
  unfold Obligations.KeySkipsOrRaise
  refine fun x s => ⟨fun k names => ?_, fun above => ?_⟩
  · exact ⟨skipOnKey_spec names true, skipOnKey_spec names false⟩
  · exact ⟨skipOnKey_of_above above true, skipOnKey_of_above above false⟩

/-- Settles O45: RDDT has the shape `assign`, and the write of the delay timer leaves `ACC`. -/
theorem delayTimerTransfers : Obligations.DelayTimerTransfers := by
  unfold Obligations.DelayTimerTransfers
  exact fun x s => ⟨assign_spec x s s.dt,
    _, rfl, rfl, rfl, (frame_setDelay s (s.reg x)).append (frame_setPc _ _)⟩

/-- Settles O46: the write of the sound timer sets SNDCHG without a look at the value. -/
theorem soundTimerWrite : Obligations.SoundTimerWrite := by
  unfold Obligations.SoundTimerWrite
  exact fun x s => ⟨_, rfl, rfl, rfl, rfl, (frame_setSound s (s.reg x)).append (frame_setPc _ _)⟩

end Sys2Proof.Machine
end

section
/-! SUPPORT. How an instruction ends (60_exceptions.md R235 to R238): it completes and leaves FAULT as it was,
or it raises a condition of its own kind and changes nothing else. -/

namespace Sys2Proof.Machine

/-! ### The ends of an instruction -/

/-- The result is a next state: one with FAULT as it was in `s`, or `s` itself but for a condition of `own`
in FAULT. -/
def CompletesOrRaises (own : Condition → Bool) (s : State) (r : Result) : Prop :=
  (∃ t, r = .next t ∧ t.fault = s.fault) ∨ ∃ c, r = .next (s.setFault c) ∧ own c = true

section
variable {own : Condition → Bool} {s t : State}

theorem CompletesOrRaises.complete (h : t.fault = s.fault) : CompletesOrRaises own s (.next t) :=
  .inl ⟨t, rfl, h⟩

theorem CompletesOrRaises.raised {c : Condition} (h : own c = true) :
    CompletesOrRaises own s (raise c s) := .inr ⟨c, rfl, h⟩

theorem completesOrRaises_skipIf (c : Bool) : CompletesOrRaises own s (skipIf c s) := by
  rw [skipIf_eq]; exact .complete rfl

theorem completesOrRaises_doneUnless {c : Option Condition} (h : t.fault = s.fault)
    (kind : ∀ e, c = some e → own e = true) : CompletesOrRaises own s (doneUnless c s t) := by
  cases c with
  | none => exact .complete h
  | some e => exact .raised (kind e rfl)

/-- The range test raises MemoryOutOfRange and no other condition (60_exceptions.md R233). -/
theorem rangeFault_isMemoryOutOfRange (base count : Nat) (c : Condition)
    (h : rangeFault base count = some c) : c.isMemoryOutOfRange = true := by
  unfold rangeFault at h
  split at h
  · cases h; rfl
  · cases h

theorem completesOrRaises_ret : CompletesOrRaises (canRaise .ret) s (execRet s) := by
  unfold execRet
  split
  · exact .raised (by decide)
  · exact .complete rfl

theorem completesOrRaises_call (nnn : Nat) :
    CompletesOrRaises (canRaise (.call nnn)) s (execCall nnn s) := by
  unfold execCall callWithCapacity
  split
  · exact .raised (beq_self_eq_true _)
  · exact .complete rfl

theorem completesOrRaises_skipOnKey (x : Reg) (wanted : Bool) :
    CompletesOrRaises Condition.isKeyIndexOutOfRange s (skipOnKey x wanted s) := by
  cases h : s.keyAt (s.reg x) with
  | none => rw [skipOnKey_eq_raise h]; exact .raised rfl
  | some pressed => rw [skipOnKey_eq_skipIf h]; exact completesOrRaises_skipIf _

theorem completesOrRaises_waitkey (x : Reg) : CompletesOrRaises own s (execWaitkey x s) := by
  cases h : highestKey s.keys with
  | none => rw [execWaitkey_eq_next h]; exact .complete rfl
  | some k => rw [execWaitkey_eq_done h]; exact .complete rfl

end

/-- All the ends that an instruction can have (60_exceptions.md R236 to R238). -/
theorem exec_completesOrRaises (i : Instr) (s : State) : CompletesOrRaises (canRaise i) s (exec i s) := by
  cases i with
  | ret => exact completesOrRaises_ret
  | call nnn => exact completesOrRaises_call nnn
  | skkey x | sknkey x => exact completesOrRaises_skipOnKey x _
  | draw | bcd | stregs => exact completesOrRaises_doneUnless rfl (rangeFault_isMemoryOutOfRange _ _)
  | ldregs x =>
    have kept : (s.setRegs (s.loadedRegs x)).fault = s.fault := State.setRegs_fault s _
    exact completesOrRaises_doneUnless kept (rangeFault_isMemoryOutOfRange _ _)
  | skeqi | sknei | skeq | skne => exact completesOrRaises_skipIf _
  | waitkey x => exact completesOrRaises_waitkey x
  | cls | jmp | jmpv0 | movi | addi | mov | or | and | xor | add | sub | shr | rsub | shl | ldidx
  | rand | rddt | wrdt | wrst | addidx | glyph => exact .complete rfl

/-! ### The obligations about the ends of an instruction -/

theorem exec_answers (i : Instr) (s : State) : ∃ t, exec i s = .next t := by
  rcases exec_completesOrRaises i s with ⟨t, h, -⟩ | ⟨c, h, -⟩
  · exact ⟨t, h⟩
  · exact ⟨_, h⟩

/-- From FAULT `None`, a condition that an instruction leaves in FAULT is its own, and is the one change. -/
theorem exec_raises {i : Instr} {s t : State} {c : Condition} (hs : s.fault = none)
    (h : exec i s = .next t) (ht : t.fault = some c) : t = s.setFault c ∧ canRaise i c = true := by
  rcases exec_completesOrRaises i s with ⟨t', h', kept⟩ | ⟨d, h', own⟩ <;> cases h'.symm.trans h
  · rw [kept, hs] at ht; cases ht
  · cases ht; exact ⟨rfl, own⟩

/-- Settles O13: completing and raising both answer a next state. -/
theorem everyInstructionAnswersANextState : Obligations.EveryInstructionAnswersANextState := exec_answers

/-- Settles O12. -/
theorem eachInstructionRaisesOnlyItsOwnCondition :
    Obligations.EachInstructionRaisesOnlyItsOwnCondition := by
  unfold Obligations.EachInstructionRaisesOnlyItsOwnCondition
  exact fun i s t c hs h ht => (exec_raises hs h ht).2

end Sys2Proof.Machine
end

section
/-! SUPPORT. The Step event in a running and in a halted state (60_exceptions.md R230, R237, R239, R256), and
the jump to its own address on which a machine is parked (R263). -/

namespace Sys2Proof.Machine

/-! ### A Step that executes -/

section
variable {s u : State}

theorem step_of_unrecognised {w : Word} (h : s.running u) (hf : fetch s = .ok w) (hd : decode w = none) :
    step s = .next (u.setFault (.unknownInstruction w)) := by
  rw [step, nextEvent_of_running h]
  simp [stepEvent, fault_of_running h, fetch_of_running h, hf, hd, raise_eq]

theorem stepEvent_of_halted (h : s.halted) : stepEvent s = .next s := by
  obtain ⟨c, hc⟩ := Option.ne_none_iff_exists'.mp h
  simp [stepEvent, hc]

/-- A condition raised by a Step event is the one change of the state, whichever part of it raised. -/
theorem stepEvent_raises {c : Condition} (hs : s.fault = none) (h : stepEvent s = .next u)
    (hu : u.fault = some c) : u = s.setFault c := by
  rcases stepEvent_cases s with ⟨halted, -⟩ | ⟨d, -, -, h'⟩ | ⟨w, -, -, -, h'⟩ | ⟨w, i, -, -, -, h'⟩
  · exact absurd hs halted
  · cases h'.symm.trans h; cases hu; rfl
  · cases h'.symm.trans h; cases hu; rfl
  · exact (exec_raises hs (h'.symm.trans h) hu).1

end

/-! ### The parking jump -/

/-- The word 0x1000 | `PC` is that of JMP to `PC` (60_exceptions.md R263). -/
theorem encode_jmp_pc {pc : Word} (h : pc.toNat < 4096) : encode (.jmp pc.toNat) = 0x1000#16 ||| pc := by
  apply BitVec.eq_of_toNat_eq
  calc (encode (.jmp pc.toNat)).toNat = 1 * 4096 + pc.toNat % 4096 := encodeNNN_toNat 0x1#4 pc.toNat
    _ = 2 ^ 12 + pc.toNat := by omega
    _ = 2 ^ 12 ||| pc.toNat := Nat.two_pow_add_eq_or_of_lt (i := 12) h 1
    _ = (0x1000#16 ||| pc).toNat := by rw [BitVec.toNat_or]; rfl

theorem decode_jmp_pc {pc : Word} (h : pc.toNat < 4096) :
    decode (0x1000#16 ||| pc) = some (.jmp pc.toNat) := by
  rw [← encode_jmp_pc h]
  exact decodeOfEncodeIsIdentity (.jmp pc.toNat) (decide_eq_true h)

theorem exec_jmp_pc (s : State) : exec (.jmp s.pc.toNat) s = .next s := by
  have target : zext16 s.pc.toNat = s.pc := by simp [zext16]
  change Host.Outcome.next (s.setPc (zext16 s.pc.toNat)) = .next s
  rw [target]; rfl

/-! ### The obligations about a Step -/

/-- Settles O8: both bytes are fetched, and the Step executes what they decode to. -/
theorem stepRunsTheDecodedInstruction : Obligations.StepRunsTheDecodedInstruction := by
  unfold Obligations.StepRunsTheDecodedInstruction
  exact fun s u i hs range decodes => step_of_decode hs (fetch_eq_ok s range) decodes

/-- Settles O9. -/
theorem unrecognisedWordHalts : Obligations.UnrecognisedWordHalts := by
  unfold Obligations.UnrecognisedWordHalts
  exact fun s u w hs fetched unrecognised =>
    ⟨_, step_of_unrecognised hs fetched unrecognised, rfl, frame_setFault u _⟩

/-- Settles O11: the Step is the Step event on `u`, which is not halted. -/
theorem conditionsArePrecise : Obligations.ConditionsArePrecise := by
  unfold Obligations.ConditionsArePrecise
  intro s t u hs h ht
  obtain ⟨c, hc⟩ := Option.ne_none_iff_exists'.mp ht
  have executes : stepEvent u = .next t := (nextEvent_of_running hs).symm.trans h
  exact ⟨c, stepEvent_raises (fault_of_running hs) executes hc⟩

/-- Settles O55: the word decodes to JMP to `PC`, which sets `PC` to what it is. -/
theorem parkedStateDoesNotChange : Obligations.ParkedStateDoesNotChange := by
  unfold Obligations.ParkedStateDoesNotChange
  rintro s u hs ⟨range, fetched⟩
  have jumps : step s = exec (.jmp s.pc.toNat) u :=
    step_of_decode hs fetched (decode_jmp_pc (by omega))
  have samePc : u.pc = s.pc := frame_comesNext hs.2.2 .pc (by simp)
  rw [jumps, ← samePc, exec_jmp_pc]

end Sys2Proof.Machine
end

section
/-! SUPPORT. The timer engine in closed form (60_exceptions.md R246, R247): TimerAdvance as a number of
decrement rounds, and those rounds as Tick events. -/

namespace Sys2Proof.Machine

/-! ### Decrement rounds -/

/-- `k` decrement rounds (60_exceptions.md R247). -/
def State.timerRounds (s : State) (k : Nat) : State :=
  { s with dt := countDown^[k] s.dt, st := countDown^[k] s.st }

theorem State.timerRounds_timerRound (s : State) (k : Nat) :
    s.timerRound.timerRounds k = s.timerRounds (k + 1) := rfl

theorem countDown_iterate_toNat (k : Nat) (b : Byte) : (countDown^[k] b).toNat = b.toNat - k := by
  induction k generalizing b with
  | zero => rfl
  | succ k ih => rw [Function.iterate_succ_apply, ih, countDown_toNat]; omega

/-- Below PERIOD there is no round to go. -/
theorem State.timerRounds_of_below {period : Nat} {s : State} (below : s.acc < period) :
    { s.timerRounds (s.acc / period) with acc := s.acc % period } = s := by
  rw [Nat.div_eq_of_lt below, Nat.mod_eq_of_lt below]; rfl

/-- With fuel enough the loop goes `ACC div PERIOD` rounds and leaves ACC at the remainder. -/
theorem timerLoop_eq_timerRounds {period : Nat} (hp : 0 < period) (fuel : Nat) (s : State)
    (hf : s.acc ≤ fuel) :
    timerLoop period fuel s = { s.timerRounds (s.acc / period) with acc := s.acc % period } := by
  induction fuel generalizing s with
  | zero => exact (State.timerRounds_of_below (s := s) (by omega)).symm
  | succ fuel ih =>
    unfold timerLoop
    split
    · rename_i round
      rw [ih _ (by simp only; omega), Nat.div_eq_sub_div hp round, Nat.mod_eq_sub_mod round]
      rfl
    · exact (State.timerRounds_of_below (s := s) (by omega)).symm

theorem timerAdvanceWith_eq_timerRounds {period : Nat} (hp : 0 < period) (cap dt : Nat) (s : State) :
    timerAdvanceWith period cap dt s =
      { s.timerRounds ((s.acc + min dt cap) / period) with acc := (s.acc + min dt cap) % period } :=
  timerLoop_eq_timerRounds hp _ { s with acc := s.acc + min dt cap } le_rfl

theorem frame_timerAdvanceWith (period cap dt : Nat) (s : State) :
    unchangedExcept [.delay, .sound, .accumulator] s (timerAdvanceWith period cap dt s) := by
  obtain ⟨_, _, _, h⟩ := timerLoop_eq period (s.acc + min dt cap) { s with acc := s.acc + min dt cap }
  rw [timerAdvanceWith, h]
  intro p hp; cases p <;> simp_all [Part.same, State.stackEntry, State.reg, State.byteAt]

/-! ### Rounds as Tick events -/

/-- An event after the first Reset, other than a Step, is accepted. -/
theorem step_of_accepted {s u : State} {e : Event} (hl : s.lifecycle ≠ .constructed) (he : e ≠ .step)
    (h : s.comesNext e u) : step s = eventEffect e u :=
  nextEvent_of_accepted h (refusalOf_eq_none hl he)

/-- A scheduled Tick is one decrement round. -/
theorem step_of_tick {s : State} (hs : s.lifecycle = .ready) (rest : List Event) :
    step (s.withSchedule (.tick :: rest)) = .next (s.timerRound.withSchedule rest) := by
  have next : (s.withSchedule (.tick :: rest)).comesNext .tick (s.withSchedule rest) :=
    .inl ⟨rest, rfl, rfl⟩
  exact step_of_accepted (by simp [hs]) (by simp) next

theorem run_ticks (k : Nat) {s : State} (hs : s.lifecycle = .ready) (rest : List Event) :
    Host.Core.run core k (s.withSchedule (List.replicate k .tick ++ rest)) =
      .next ((s.timerRounds k).withSchedule rest) := by
  induction k generalizing s with
  | zero => rfl
  | succ k ih =>
    have first := step_of_tick hs (List.replicate k .tick ++ rest)
    exact (run_succ_of_step core k _ _ first).trans (ih hs)

/-! ### The timer obligations -/

/-- Settles O47, by the rounds of the loop. -/
theorem timerAdvanceClosedForm : Obligations.TimerAdvanceClosedForm := by
  unfold Obligations.TimerAdvanceClosedForm
  refine ⟨fun period cap dt s hp => ?_, fun dt s u hl next => step_of_accepted hl (by simp) next⟩
  have rounds := timerAdvanceWith_eq_timerRounds hp cap dt s
  refine ⟨by rw [rounds], ?_, ?_, frame_timerAdvanceWith period cap dt s⟩
  · rw [rounds]; exact countDown_iterate_toNat _ s.dt
  · rw [rounds]; exact countDown_iterate_toNat _ s.st

/-- Settles O48: as many Ticks as TimerAdvance has rounds. -/
theorem timerAdvanceIsASequenceOfTicks : Obligations.TimerAdvanceIsASequenceOfTicks := by
  unfold Obligations.TimerAdvanceIsASequenceOfTicks
  intro dt s rest hs
  refine ⟨(s.acc + min dt Config.dtCap) / Config.period, _, run_ticks _ hs rest, ?_⟩
  rw [timerAdvance, timerAdvanceWith_eq_timerRounds period_pos]
  rfl

end Sys2Proof.Machine
end

section
/-! SUPPORT. The host's events (60_exceptions.md R250 to R257): what each leaves unchanged, which the model
refuses, and how they go on. -/

namespace Sys2Proof.Machine

/-! ### Frames of the host's events -/

theorem frame_setKeys (keys : Vector Bool 16) (s : State) : unchangedExcept [.keys] s (setKeys keys s) := by
  intro p hp; cases p <;> simp_all [Part.same, setKeys, State.stackEntry, State.reg, State.byteAt]

theorem frame_setWrapPolicy (wrap : Bool) (s : State) :
    unchangedExcept [.wrap] s (setWrapPolicy wrap s) := by
  intro p hp; cases p <;> simp_all [Part.same, setWrapPolicy, State.stackEntry, State.reg, State.byteAt]

theorem frame_consumeRedraw (s : State) : unchangedExcept [.redraw, .reply] s (consumeRedraw s) := by
  intro p hp; cases p <;> simp_all [Part.same, consumeRedraw, State.stackEntry, State.reg, State.byteAt]

theorem frame_consumeSoundChanged (s : State) :
    unchangedExcept [.soundChanged, .reply] s (consumeSoundChanged s) := by
  intro p hp
  cases p <;> simp_all [Part.same, consumeSoundChanged, State.stackEntry, State.reg, State.byteAt]

/-! ### What the model refuses -/

/-- The table of what is refused (93_implementation_defined.md U14, U18). -/
theorem exists_refusalOf_iff (l : Lifecycle) (e : Event) :
    (∃ r, refusalOf l e = some r) ↔
      (l = .constructed ∧ e ≠ .reset ∧ ∀ wrap, e ≠ .setWrapPolicy wrap) ∨
        (l = .loadFailed ∧ e = .step) := by
  cases l <;> cases e <;> simp [refusalOf]

/-- Every accepted event answers a next state. -/
theorem eventEffect_answers (e : Event) (s : State) : ∃ t, eventEffect e s = .next t := by
  cases e with
  | step =>
    rcases stepEvent_cases s with ⟨-, h⟩ | ⟨c, -, -, h⟩ | ⟨w, -, -, -, h⟩ | ⟨w, i, -, -, -, h⟩
    · exact ⟨_, h⟩
    · exact ⟨_, h⟩
    · exact ⟨_, h⟩
    · obtain ⟨t, ht⟩ := exec_answers i s
      exact ⟨t, h.trans ht⟩
  | reset | loadImage | timerAdvance | tick | setKeys | setWrapPolicy | consumeRedraw
  | consumeSoundChanged => exact ⟨_, rfl⟩

theorem runEvent_refused_iff (e : Event) (s : State) :
    (∃ r, runEvent e s = .refused r) ↔ ∃ r, refusalOf s.lifecycle e = some r := by
  cases h : refusalOf s.lifecycle e with
  | some r => simp [runEvent, h]
  | none =>
    obtain ⟨t, ht⟩ := eventEffect_answers e s
    simp [runEvent, h, ht]

/-- Whether a step is refused, by the event that comes next. -/
theorem step_refused_iff {s u : State} {e : Event} (next : s.comesNext e u) :
    (∃ r, step s = .refused r) ↔
      (s.lifecycle = .constructed ∧ e ≠ .reset ∧ ∀ wrap, e ≠ .setWrapPolicy wrap) ∨
        (s.lifecycle = .loadFailed ∧ e = .step) := by
  have sameLifecycle : u.lifecycle = s.lifecycle := frame_comesNext next .lifecycle (by simp)
  rw [step, nextEvent_eq next, runEvent_refused_iff, sameLifecycle, exists_refusalOf_iff]

/-! ### The events to come -/

/-- The host's plan: the events to come, scheduled and after those. -/
def samePlan (s t : State) : Prop := t.schedule = s.schedule ∧ t.environment = s.environment

theorem samePlan_of_update {ps : List Part} {s t : State} (h : Update s ps t) : samePlan s t := by
  cases h <;> simp [samePlan]

theorem samePlan_of_updates {ps : List Part} {s t : State} (h : Updates s ps t) : samePlan s t := by
  induction h with
  | refl => exact ⟨rfl, rfl⟩
  | step _ last _ ih =>
    obtain ⟨schedule, environment⟩ := samePlan_of_update last
    exact ⟨schedule.trans ih.1, environment.trans ih.2⟩

/-- No event's effect touches the events to come. -/
theorem eventEffect_samePlan {e : Event} {s t : State} (h : eventEffect e s = .next t) :
    samePlan s t := by
  cases e with
  | step =>
    obtain ⟨_, hu⟩ := stepEvent_updates h
    exact samePlan_of_updates hu
  | loadImage image =>
    cases h
    rcases loadImage_cases image s with ⟨-, h⟩ | ⟨-, h⟩ <;> rw [h] <;> exact ⟨rfl, rfl⟩
  | timerAdvance dt =>
    cases h
    obtain ⟨_, _, _, h⟩ := timerAdvance_eq dt s
    rw [h]; exact ⟨rfl, rfl⟩
  | reset | tick | setKeys | setWrapPolicy | consumeRedraw | consumeSoundChanged =>
    cases h; exact ⟨rfl, rfl⟩

/-- Nothing is scheduled and the host is free, its next event the `n`-th. -/
def State.hostFree (s : State) (n : Nat) : Prop := s.schedule = [] ∧ s.environment = .free n

theorem State.hostFree.comesNext_iff {s u : State} {n : Nat} {e : Event} (h : s.hostFree n) :
    s.comesNext e u ↔ e = Config.hostEvent n ∧ u = s.withEnvironment (.free (n + 1)) := by
  obtain ⟨nothing, free⟩ := h
  simp [State.comesNext, nothing, free]

/-- A free host stays free, one event on. -/
theorem State.hostFree.step {s t : State} {n : Nat} (h : s.hostFree n) (ht : step s = .next t) :
    t.hostFree (n + 1) := by
  obtain ⟨e, u, next, -, effect⟩ := nextEvent_cases ht
  obtain ⟨-, rfl⟩ := h.comesNext_iff.mp next
  obtain ⟨schedule, environment⟩ := eventEffect_samePlan effect
  exact ⟨schedule.trans h.1, environment⟩

/-- A run that goes on took a first step. -/
theorem step_of_run_succ {m : Host.Core} {k : Nat} {s t : m.State} (h : m.run (k + 1) s = .next t) :
    ∃ s', m.step s = .next s' ∧ m.run k s' = .next t := by
  unfold Host.Core.run at h
  split at h
  · exact ⟨_, by assumption, h⟩
  · cases h
  · cases h

theorem State.hostFree.run {k n : Nat} {s t : State} (h : s.hostFree n)
    (ht : Host.Core.run core k s = .next t) : t.hostFree (n + k) := by
  induction k generalizing n s with
  | zero => cases ht; exact h
  | succ k ih =>
    obtain ⟨s', first, later⟩ := step_of_run_succ ht
    rw [Nat.add_comm k, ← Nat.add_assoc]
    exact ih (h.step first) later

/-! ### The obligations about the host's events -/

/-- Settles O10: a Step event is accepted and does nothing, the two others are accepted and as at any time. -/
theorem haltedMachineIsFrozen : Obligations.HaltedMachineIsFrozen := by
  unfold Obligations.HaltedMachineIsFrozen
  intro s halted ready
  have hl : s.lifecycle ≠ .constructed := by simp [ready]
  refine ⟨fun u next => ?_, fun dt u next => ?_, fun keys u next => ?_⟩
  · have stays : u.halted := fun h => halted ((frame_comesNext next .fault (by simp)).symm.trans h)
    exact (nextEvent_of_accepted next (by rw [ready]; rfl)).trans (stepEvent_of_halted stays)
  · exact ⟨_, step_of_accepted hl (by simp) next, rfl, frame_timerAdvanceWith _ _ dt u⟩
  · exact ⟨_, step_of_accepted hl (by simp) next, rfl, frame_setKeys keys u⟩

/-- Settles O52: SetWrapPolicy is accepted before the first Reset too. -/
theorem setKeysAndSetWrapPolicy : Obligations.SetKeysAndSetWrapPolicy := by
  unfold Obligations.SetKeysAndSetWrapPolicy
  refine ⟨fun keys s u hl next => ?_, fun wrap s u next => ?_⟩
  · exact ⟨_, step_of_accepted hl (by simp) next, fun _ => rfl, frame_setKeys keys u⟩
  · have accepted : refusalOf s.lifecycle (.setWrapPolicy wrap) = none := by cases s.lifecycle <;> rfl
    exact ⟨_, nextEvent_of_accepted next accepted, rfl, rfl, frame_setWrapPolicy wrap u⟩

/-- Settles O53: taking the event leaves both flags as they were, so the reply is the flag of `s`. -/
theorem consumeReturnsAndClears : Obligations.ConsumeReturnsAndClears := by
  unfold Obligations.ConsumeReturnsAndClears
  refine ⟨fun s u hl next => ?_, fun s u hl next => ?_⟩
  · have same : u.redraw = s.redraw := frame_comesNext next .redraw (by simp)
    exact ⟨_, step_of_accepted hl (by simp) next, congrArg Reply.flag same, rfl, frame_consumeRedraw u⟩
  · have same : u.sndchg = s.sndchg := frame_comesNext next .soundChanged (by simp)
    exact ⟨_, step_of_accepted hl (by simp) next, congrArg Reply.flag same, rfl,
      frame_consumeSoundChanged u⟩

/-- Settles O54: every state has a next event, and the step is refused exactly when that one is. -/
theorem stepRefusesExactly : Obligations.StepRefusesExactly := by
  unfold Obligations.StepRefusesExactly
  refine fun s => ⟨fun refused => ?_, ?_⟩
  · have next := comesNext_takeEvent s
    exact ⟨_, _, next, (step_refused_iff next).mp refused⟩
  · rintro ⟨e, u, next, refuses⟩
    exact (step_refused_iff next).mpr refuses

/-- Settles O60: the next event is the one `takeEvent` gives, and a free host stays free along a run. -/
theorem hostEventsAreUnconstrained : Obligations.HostEventsAreUnconstrained := by
  unfold Obligations.HostEventsAreUnconstrained
  refine ⟨fun s => ?_, fun k n s t nothing free run => ?_⟩
  · have next := comesNext_takeEvent s
    refine ⟨_, _, next, fun d v other => ?_, frame_comesNext next, nextEvent_eq next⟩
    exact Prod.mk.inj ((comesNext_iff.mp other).symm.trans (comesNext_iff.mp next))
  · have later : t.hostFree (n + k) := State.hostFree.run ⟨nothing, free⟩ run
    exact ⟨later.1, later.2, fun _ _ => later.comesNext_iff⟩

end Sys2Proof.Machine
end

section
/-! SUPPORT. The LoadImage event (70_reset_and_hazards.md R284): its two cases, each with its frame, and the
bytes of memory afterwards. -/

namespace Sys2Proof.Machine

/-- Answering a load touches only the model's reply and lifecycle. -/
theorem frame_answerLoad (s : State) (answer : Reply) (next : Lifecycle) :
    unchangedExcept [.reply, .lifecycle] s { s with reply := answer, lifecycle := next } := by
  intro p hp; cases p <;> simp_all [Part.same, State.stackEntry, State.reg, State.byteAt]

theorem loadImage_of_fits {image : List Byte} (fits : loadAddress + image.length ≤ memSize) (s : State) :
    loadImage image s = { s.storeBytes loadAddress image with reply := .loaded, lifecycle := .ready } := by
  obtain ⟨-, h⟩ | ⟨tooLong, -⟩ := loadImage_cases image s
  · exact h
  · exact absurd fits (Nat.not_le.mpr tooLong)

theorem loadImage_of_tooLong {image : List Byte} (tooLong : memSize < loadAddress + image.length) (s : State) :
    loadImage image s = { s with reply := .imageTooLarge, lifecycle := .loadFailed } := by
  obtain ⟨fits, -⟩ | ⟨-, h⟩ := loadImage_cases image s
  · exact absurd fits (Nat.not_le.mpr tooLong)
  · exact h

/-- All that loading an image that fits does to reads of bytes. -/
theorem byteAt_loadImage {image : List Byte} (fits : loadAddress + image.length ≤ memSize) {s : State}
    (wf : s.memWf) (a : Nat) :
    (loadImage image s).byteAt a =
      if loadAddress ≤ a ∧ a < loadAddress + image.length then image.getD (a - loadAddress) 0
      else s.byteAt a := by
  rw [loadImage_of_fits fits]
  exact State.byteAt_storeBytes s loadAddress a image wf fits

/-- An image that fits goes to memory: the store, and then the answer. -/
theorem frame_loadImage_of_fits {image : List Byte} (fits : loadAddress + image.length ≤ memSize) (s : State) :
    unchangedExcept [.memory, .reply, .lifecycle] s (loadImage image s) := by
  rw [loadImage_of_fits fits]
  exact (frame_storeBytes s loadAddress image).append (frame_answerLoad _ .loaded .ready)

theorem memWf_comesNext {s u : State} {e : Event} (h : s.comesNext e u) (wf : s.memWf) : u.memWf := by
  obtain ⟨_, _, rfl⟩ := comesNext_cases h
  exact wf

/-- Settles O51: the event is accepted, and 3584 bytes are what memory holds from 0x200 on. -/
theorem loadImageWritesTheImageOrNothing : Obligations.LoadImageWritesTheImageOrNothing := by
  unfold Obligations.LoadImageWritesTheImageOrNothing
  intro image s u wf hl next
  have loads : step s = .next (loadImage image u) := step_of_accepted hl (by simp) next
  refine ⟨fun short => ?_, fun long => ?_⟩
  · have fits : loadAddress + image.length ≤ memSize := by simp only [loadAddress, memSize]; omega
    have bytes := byteAt_loadImage fits (memWf_comesNext next wf)
    have answer := loadImage_of_fits fits u
    refine ⟨_, loads, by rw [answer], by rw [answer], fun k hk => ?_, fun a outside => ?_,
      frame_loadImage_of_fits fits u⟩
    · rw [← loadAddress, bytes, if_pos (by omega), Nat.add_sub_cancel_left]
    · rw [bytes, if_neg (by simp only [loadAddress]; omega)]
      exact frame_comesNext next .memory (by simp) a
  · have tooLong : memSize < loadAddress + image.length := by simp only [loadAddress, memSize]; omega
    exact ⟨_, loads.trans (congrArg Host.Outcome.next (loadImage_of_tooLong tooLong u)), rfl, rfl,
      frame_answerLoad u .imageTooLarge .loadFailed⟩

end Sys2Proof.Machine
end
